-- ==== Sys2Proof/Word.lean ====
section
/-! DEFINITION. The word types of the engine (00_scope.md R8, R9): every width the spec names, under one name each. -/

namespace Sys2Proof

/-- One byte of a data block, and the CRC accumulator (R8 `CRC_WIDTH`, R26). -/
abbrev Byte := BitVec 8

/-- A command word `CMD` or a response word `RESP` (R40). -/
abbrev Word := BitVec 32

/-- One diagnostic event word (R53). -/
abbrev EventWord := BitVec 64

/-- A wall-clock sample in seconds, two's complement (R8 `NOW_SEC`, R19, R94). -/
abbrev Time := BitVec 64

/-- One 11-bit channel value, 0 to 2047 (R8 `CH_BITS`). -/
abbrev Channel := BitVec 11

/-- The document's ChannelSet: exactly 16 channel values; index `i - 1` holds channel `i` (R13, R64). -/
abbrev ChannelSet := Vector Channel 16

end Sys2Proof
end

