-- ==== Sys2Proof/Config.lean ====
section
/-! DEFINITION. The engine's parameters (00_scope.md R8) and the model's free values. -/

namespace Sys2Proof

/-- `CRC_POLY` (R8). -/
@[simp] abbrev Config.crcPoly : Byte := 0xD5#8

/-- `CRC_INIT` (R8). -/
@[simp] abbrev Config.crcInit : Byte := 0x00#8

/-- `N_CH` (R8). -/
@[simp] abbrev Config.channels : Nat := 16

/-- `CH_BITS` (R8). -/
@[simp] abbrev Config.channelBits : Nat := 11

/-- `PAYLOAD_BYTES` (R8). -/
@[simp] abbrev Config.payloadBytes : Nat := 22

/-- `FRAME_MIN` (R8). -/
@[simp] abbrev Config.frameMin : Nat := 4

/-- `FRAME_MAX` (R8); also the limit of `CRC_DIGEST` and `UNPACK` (R62, R67, D13). -/
@[simp] abbrev Config.frameMax : Nat := 64

/-- `TYPE_CHANNELS_PACKED` (R8, D14). -/
@[simp] abbrev Config.typeChannelsPacked : Byte := 0x16#8

/-- `PROCESS_MIN_LEN` (R8, R76, C1). -/
@[simp] abbrev Config.processMinLen : Nat := 26

/-- `RATE_PERIOD` in whole seconds (R8, R78). -/
@[simp] abbrev Config.ratePeriod : Int := 1

/-- FREE VALUE, DESIGN CHOICE (log entry 7). What `In(k)` is for `k >= LEN`: R28 says it "has no meaning in this
spec and never occurs". Safe: nothing constrains it, and no command rule reads it. -/
opaque Config.outOfRangeByte : Nat → Byte

/-- FREE VALUE, DESIGN CHOICE (log entry 6). Whether a reset asserted while a command is in progress takes effect before
that command (`true`) or after it (`false`): R104 says "which of the two is not specified". Applied to the counter
`State.draws`. Safe: nothing constrains it. -/
opaque Config.resetFirst : Nat → Bool

end Sys2Proof
end

