-- ==== Sys2Proof/Syntax.lean ====
section
/-! DEFINITION. Commands, transactions, and what the host can do (30_encoding.md R40 to R46; 60_exceptions.md R98). -/

namespace Sys2Proof

/-- The four commands (R42), one constructor per row of spec/opcode_table.json. Every operand is a field of the command
word, at exactly the width the word gives it (R43 to R46, R55). -/
inductive Instr where
  /-- `CRC_UPDATE`, format U (R43). -/
  | crcUpdate (acc data : BitVec 8)
  /-- `CRC_DIGEST`, format L (R44). -/
  | crcDigest (len : BitVec 8)
  /-- `UNPACK`, format L (R45). -/
  | unpack (len : BitVec 8)
  /-- `PROCESS`, format P (R46). -/
  | process (len : BitVec 8) (chanIdx : BitVec 5) (threshold : BitVec 11)
deriving DecidableEq, Repr

/-- The four rejections of the document's taxonomy (R85). Only the last records a value, the command's CHAN_IDX. -/
inductive RejectReason where
  | invalidLength
  | invalidType
  | checksumMismatch
  | configChannelOutOfRange (chanIdx : BitVec 5)
deriving DecidableEq, Repr

/-- The four fault causes (R51, R87). -/
inductive FaultCause where
  | illegalOp
  | reservedNonzero
  | lenOutOfRange
  | unpackUnderrun
deriving DecidableEq, Repr

/-- A command transaction (R40): the command word, the data block the host delivers with it, and the `NOW_SEC` value the
time input presents while it runs (R94, R95, R98). -/
structure Transaction where
  cmd  : Word
  data : List Byte
  now  : Time
deriving DecidableEq, Repr

/-- What the host can do (R98, R104). -/
inductive HostAction where
  /-- Send one command. -/
  | command (tx : Transaction)
  /-- Assert reset between commands (R98). -/
  | reset
  /-- Send a command and assert reset while it is in progress (R104, U11). -/
  | commandUnderReset (tx : Transaction)
deriving DecidableEq, Repr

end Sys2Proof
end

