-- ==== Sys2Proof/WellFormed.lean ====
section
/-! DEFINITION. The checks on a command's fields. Every `Instr` has an encoding, since each field has the word's own width
(R55); what is left to check is which field values the spec calls legal (R44 to R46, R106). -/

namespace Sys2Proof

/-- LEN of `CRC_DIGEST`: "0 to 255 encodable, 0 to 64 legal" (R44). -/
def digestLenLegal (len : BitVec 8) : Bool := decide (len.toNat ≤ 64)

/-- LEN of `UNPACK`: "LEN 22 to 64 executes" (R45). -/
def unpackLenLegal (len : BitVec 8) : Bool := decide (22 ≤ len.toNat ∧ len.toNat ≤ 64)

/-- CHAN_IDX of `PROCESS`: "The valid range is 1 to 16" (R46); the host validates it at startup (R106). -/
def chanIdxLegal (chanIdx : BitVec 5) : Bool := decide (1 ≤ chanIdx.toNat ∧ chanIdx.toNat ≤ 16)

/-- The fields of an instruction are legal. LEN and THRESHOLD of `PROCESS`: "Every value is legal as an encoding" and
"every value legal" (R46). -/
def Instr.legal : Instr → Bool
  | .crcUpdate _ _ => true
  | .crcDigest len => digestLenLegal len
  | .unpack len => unpackLenLegal len
  | .process _ chanIdx _ => chanIdxLegal chanIdx

end Sys2Proof
end

