-- ==== Sys2Proof/Decode.lean ====
section
/-! DEFINITION. Decoding and encoding of command words (30_encoding.md R41 to R48, R55), the length of a command's data
block (R48, R98), and the serialised form of a transaction (R30, D17). -/

namespace Sys2Proof

/-! ## The fields of a command word (R41, R43 to R46) -/

/-- `OP = CMD[3:0]`. -/
def fieldOp (w : Word) : BitVec 4 := w.extractLsb' 0 4
/-- `RSV0 = CMD[7:4]`. -/
def fieldRsv0 (w : Word) : BitVec 4 := w.extractLsb' 4 4
/-- `ACC = CMD[15:8]`, format U. -/
def fieldAcc (w : Word) : BitVec 8 := w.extractLsb' 8 8
/-- `DATA = CMD[23:16]`, format U. -/
def fieldData (w : Word) : BitVec 8 := w.extractLsb' 16 8
/-- `RSV1 = CMD[31:24]`, format U. -/
def fieldRsv1 (w : Word) : BitVec 8 := w.extractLsb' 24 8
/-- `LEN = CMD[15:8]`, formats L and P. -/
def fieldLen (w : Word) : BitVec 8 := w.extractLsb' 8 8
/-- `RSV2 = CMD[31:16]`, format L. -/
def fieldRsv2 (w : Word) : BitVec 16 := w.extractLsb' 16 16
/-- `CHAN_IDX = CMD[20:16]`, format P. -/
def fieldChanIdx (w : Word) : BitVec 5 := w.extractLsb' 16 5
/-- `THRESHOLD = CMD[31:21]`, format P. -/
def fieldThreshold (w : Word) : BitVec 11 := w.extractLsb' 21 11

/-! ## Decoding (R42, R47) -/

/-- Why a command word is no command (R47 steps 2 and 3, R56). -/
inductive DecodeFault where
  /-- OP is none of 0x1 to 0x4 (R42). -/
  | illegalOp
  /-- RSV0 or the format's own reserved field is not 0 (R47). -/
  | reservedNonzero
deriving DecidableEq, Repr

/-- The fault cause a rejected word raises (R47). -/
def DecodeFault.cause : DecodeFault → FaultCause
  | .illegalOp => .illegalOp
  | .reservedNonzero => .reservedNonzero

/-- What the decoder answers: "every 32-bit command word either selects one of the four commands or faults" (R56). -/
inductive Decoded where
  | instr (i : Instr)
  | rejected (why : DecodeFault)
deriving DecidableEq, Repr

/-- The instruction of a decoded word, if it is one. -/
def Decoded.instr? : Decoded → Option Instr
  | .instr i => some i
  | .rejected _ => none

/-- R47 step 3, then the command: `i` unless RSV0 or the format's own reserved field `rsv` is nonzero. -/
def checkReserved {n : Nat} (w : Word) (rsv : BitVec n) (i : Instr) : Decoded :=
  if fieldRsv0 w ≠ 0#4 ∨ rsv ≠ 0#n then .rejected .reservedNonzero else .instr i

/-- Decoding of a command word in the order of R47: the opcode first, then the reserved fields. Format P has no reserved
field beyond RSV0. -/
def decode (w : Word) : Decoded :=
  if fieldOp w = 0x1#4 then checkReserved w (fieldRsv1 w) (.crcUpdate (fieldAcc w) (fieldData w))
  else if fieldOp w = 0x2#4 then checkReserved w (fieldRsv2 w) (.crcDigest (fieldLen w))
  else if fieldOp w = 0x3#4 then checkReserved w (fieldRsv2 w) (.unpack (fieldLen w))
  else if fieldOp w = 0x4#4 then
    checkReserved w 0#0 (.process (fieldLen w) (fieldChanIdx w) (fieldThreshold w))
  else .rejected .illegalOp

/-! ## The data block (R48, R98) -/

/-- The length of a command's data block "is determined from the command word alone" (R48). -/
def blockLen (w : Word) : Nat :=
  if fieldOp w = 0x2#4 ∨ fieldOp w = 0x3#4 ∨ fieldOp w = 0x4#4 then (fieldLen w).toNat else 0

/-- The length of an instruction's data block (R43 to R46). -/
def Instr.blockLen : Instr → Nat
  | .crcUpdate _ _ => 0
  | .crcDigest len => len.toNat
  | .unpack len => len.toNat
  | .process len _ _ => len.toNat

/-- The host delivers exactly LEN data bytes (R48, R98, D19). -/
def Transaction.delivered (tx : Transaction) : Bool := tx.data.length == Sys2Proof.blockLen tx.cmd

/-- A host action keeps the host's duty about the data block. -/
def HostAction.delivered : HostAction → Bool
  | .command tx => tx.delivered
  | .reset => true
  | .commandUnderReset tx => tx.delivered

/-! ## Encoding (R43 to R46) -/

/-- The command word of an instruction: its opcode, and each field at the place R43 to R46 give it; every other bit,
the reserved fields' among them, is 0. -/
def encode : Instr → Word
  | .crcUpdate acc data => 0x1#32 ||| (acc.setWidth 32 <<< 8) ||| (data.setWidth 32 <<< 16)
  | .crcDigest len => 0x2#32 ||| (len.setWidth 32 <<< 8)
  | .unpack len => 0x3#32 ||| (len.setWidth 32 <<< 8)
  | .process len chanIdx threshold =>
    0x4#32 ||| (len.setWidth 32 <<< 8) ||| (chanIdx.setWidth 32 <<< 16) ||| (threshold.setWidth 32 <<< 21)

/-- One row of the opcode table: the fixed bits of a command (spec/opcode_table.json `match` and `mask`). -/
structure OpcodeRow where
  mnemonic : String
  pattern  : Word
  mask     : Word
deriving DecidableEq, Repr

/-- A word has the fixed bits of a row. -/
def OpcodeRow.fits (r : OpcodeRow) (w : Word) : Bool := w &&& r.mask == r.pattern

/-- The rows of spec/opcode_table.json, in its order. -/
def opcodeTable : List OpcodeRow :=
  [⟨"CRC_UPDATE", 0x00000001#32, 0xFF0000FF#32⟩,
   ⟨"CRC_DIGEST", 0x00000002#32, 0xFFFF00FF#32⟩,
   ⟨"UNPACK",     0x00000003#32, 0xFFFF00FF#32⟩,
   ⟨"PROCESS",    0x00000004#32, 0x000000FF#32⟩]

/-- The mnemonic of an instruction (R42). -/
def Instr.mnemonic : Instr → String
  | .crcUpdate _ _ => "CRC_UPDATE"
  | .crcDigest _ => "CRC_DIGEST"
  | .unpack _ => "UNPACK"
  | .process _ _ _ => "PROCESS"

/-! ## Serialised form (R30, D17: least significant byte first) -/

/-- The `n` low bytes of a number, least significant first. -/
def leBytes : Nat → Nat → List Byte
  | 0, _ => []
  | n + 1, v => BitVec.ofNat 8 v :: leBytes n (v >>> 8)

/-- The number that a byte list spells, least significant byte first. -/
def leValue : List Byte → Nat
  | [] => 0
  | b :: bs => b.toNat + 256 * leValue bs

/-- A transaction as bytes: the command word, least significant byte first (R30), then its data block. That the block
follows the word is DESIGN CHOICE (log entry 10). -/
def Transaction.serialise (tx : Transaction) : List Byte := leBytes 4 tx.cmd.toNat ++ tx.data

/-- Reads one transaction off a byte list, total on any bytes: four bytes of command word, then as many data bytes as the
word calls for (R48: a decoder "always knows a transaction's length after it has read the command word"). `none` where
the bytes run out. Answers the transaction and the rest. -/
def readTransaction (now : Time) (bs : List Byte) : Option (Transaction × List Byte) :=
  let cmd := BitVec.ofNat 32 (leValue (bs.take 4))
  let rest := bs.drop 4
  if bs.length < 4 ∨ rest.length < blockLen cmd then none
  else some (⟨cmd, rest.take (blockLen cmd), now⟩, rest.drop (blockLen cmd))

/-- The transaction that stands in a table word: the low `nbits` bits of `w` are its first bits, bit 0 the least
significant bit of the command word, every bit above them 0 (so the data block is zeros up to its LEN). Its bytes are laid
out as the host serialises them and read back. -/
def tableTransaction (nbits w : Nat) (now : Time) : Option Transaction :=
  let bits := w % 2 ^ nbits
  (readTransaction now (leBytes (4 + blockLen (BitVec.ofNat 32 bits)) bits)).map (·.1)

/-- The instruction the decoder reads from a table word. -/
def decodeTableWord (nbits w : Nat) : Option Instr :=
  (tableTransaction nbits w 0#64).bind fun tx => (decode tx.cmd).instr?

end Sys2Proof
end

