-- ==== Sys2Proof/Machine/State.lean ====
section
/-! DEFINITION. The state of the engine (10_state.md R17 to R25), its ports (30_encoding.md R40), the host's pending
actions, and the state after reset (70_reset_and_hazards.md R103). -/

namespace Sys2Proof.Machine

/-- What the output ports carry for one command (R40): the engine's reply. -/
structure Reply where
  /-- `RESP` (R49); `none` where no response has been driven. -/
  resp    : Option Word
  /-- `RES_CH[1..16]` (R52); index `i - 1` holds `RES_CH[i]`. -/
  resCh   : Vector (BitVec 16) 16
  /-- The diagnostic port's event words, in emission order (R53, R54, R97). -/
  events  : List EventWord
  /-- The actuation port: the `ACT_VALUE` of each `ACT_STROBE` driven, in order (R96). -/
  strobes : List Bool
deriving DecidableEq, Repr

/-- Nothing driven: no response, result words 0, no event, no strobe (R52, R103; result words outside a command are DESIGN
CHOICE, log entry 2). -/
def Reply.idle : Reply := ⟨none, Vector.replicate 16 0#16, [], []⟩

/-- The state of the machine. The first four fields are all of the engine's persistent state (R17). -/
structure State where
  /-- `GATE_VALID` (R18): false is "never evaluated". -/
  gateValid : Bool
  /-- `GATE_LAST` (R19): `NOW_SEC` of the last emitted decision, two's complement seconds. -/
  gateLast  : Time
  /-- `FAULTED` (R20). -/
  faulted   : Bool
  /-- `FCAUSE` (R21). -/
  fcause    : BitVec 4
  /-- The data block of the current command (R26, R28), an input port. -/
  block     : List Byte
  /-- `NOW_SEC`, what the time input presents for the current command (R94, R95), an input port. -/
  nowSec    : Time
  /-- The reply driven in the step that led here (R40, log entry 2), the output ports. -/
  out       : Reply
  /-- The MODEL's own field: what the host does next (R98, log entry 1). -/
  pending   : List HostAction
  /-- The MODEL's own field: how many free values have been drawn (R104, log entry 6). -/
  draws     : Nat
deriving DecidableEq, Repr

/-- Reasons for which the machine itself stops with a fault: none. The engine's faults (R87) are entries into the fault
state, which the spec describes, so they are next states (R88, log entry 8). Nobody raises this; safe. -/
inductive Fault where
deriving DecidableEq, Repr

/-- Reasons for which the model gives no next state. -/
inductive Refusal where
  /-- Raised by `exec` for an instruction that has no meaning yet; no arm does. Safe: the machine stops. -/
  | notModelled (mnemonic : String)
  /-- Raised by every command whose data block does not have exactly LEN bytes: a host that breaks its "must", which "The
  spec does not model" (R98, U13 `refuse`, log entry 5). Safe: the machine stops. -/
  | blockLength
deriving DecidableEq, Repr

/-- The three outcomes of the engine's commands and steps. -/
abbrev Result := Host.Outcome State Fault Refusal

/-- The machine right after reset (R103): gate never evaluated, no fault, nothing driven, waiting for its first command.
The input ports' values and the model's own fields are DESIGN CHOICE (log entries 1, 4, 6). -/
def State.reset : State where
  gateValid := false
  gateLast  := 0#64
  faulted   := false
  fcause    := 0#4
  block     := []
  nowSec    := 0#64
  out       := Reply.idle
  pending   := []
  draws     := 0

end Sys2Proof.Machine
end

