-- ==== Sys2Proof/Machine/Flags.lean ====
section
/-! DEFINITION. The engine has no flags that persist (R16): a command's outcome lives in its response word and its event
words. This file holds their layouts (30_encoding.md R49 to R51, R53; 42_process.md R72; 60_exceptions.md R86, R88). -/

namespace Sys2Proof.Machine

/-- STATUS code of a rejection, which is also its REJECT event's CODE (R50, R85). -/
def rejectCode : RejectReason → BitVec 4
  | .invalidLength => 0x1#4
  | .invalidType => 0x2#4
  | .checksumMismatch => 0x3#4
  | .configChannelOutOfRange _ => 0x4#4

/-- FCAUSE code of a fault cause (R51). -/
def causeCode : FaultCause → BitVec 4
  | .illegalOp => 1#4
  | .reservedNonzero => 2#4
  | .lenOutOfRange => 3#4
  | .unpackUnderrun => 4#4

/-! ## Response words (R49) -/

/-- A CRC result: STATUS = OK and RESULT8 (R60, R62). -/
def crcResponse (r : Byte) : Word := r.setWidth 32 <<< 8

/-- STATUS = OK and every other field 0: `UNPACK`, and `PROCESS` suppressed (R67, R82). -/
def okResponse : Word := 0x00000000#32

/-- STATUS = the code of the rejection (R86). -/
def rejectResponse (r : RejectReason) : Word := (rejectCode r).setWidth 32

/-- STATUS = 0xF and FCAUSE (R88, R89). -/
def faultResponse (cause : BitVec 4) : Word := (cause.setWidth 32 <<< 28) ||| 0xF#32

/-- STATUS = OK, DECIDED = 1, ACTIVATE and CHVAL (R72, R81). -/
def decisionResponse (v : Channel) (act : Bool) : Word :=
  (v.setWidth 32 <<< 16) ||| ((BitVec.ofBool act).setWidth 32 <<< 5) ||| (1#32 <<< 4)

/-! ## The fields of a response word (R49) -/

/-- `STATUS = RESP[3:0]`. -/
def respStatus (w : Word) : BitVec 4 := w.extractLsb' 0 4
/-- `DECIDED = RESP[4]`. -/
def respDecided (w : Word) : BitVec 1 := w.extractLsb' 4 1
/-- `ACTIVATE = RESP[5]`. -/
def respActivate (w : Word) : BitVec 1 := w.extractLsb' 5 1
/-- `RESULT8 = RESP[15:8]`. -/
def respResult8 (w : Word) : BitVec 8 := w.extractLsb' 8 8
/-- `CHVAL = RESP[26:16]`. -/
def respChval (w : Word) : BitVec 11 := w.extractLsb' 16 11
/-- `FCAUSE = RESP[31:28]`. -/
def respFcause (w : Word) : BitVec 4 := w.extractLsb' 28 4

/-! ## Event words (R53) -/

/-- The CHAN_IDX a rejection records: only `ConfigChannelOutOfRange` has one (R85). -/
def rejectChanIdx : RejectReason → BitVec 5
  | .invalidLength => 0#5
  | .invalidType => 0#5
  | .checksumMismatch => 0#5
  | .configChannelOutOfRange chanIdx => chanIdx

/-- REJECT event (R86). -/
def rejectEvent (r : RejectReason) : EventWord :=
  1#64 ||| ((rejectCode r).setWidth 64 <<< 4) ||| ((rejectChanIdx r).setWidth 64 <<< 16)

/-- DECODE event (R72). -/
def decodeEvent (chanIdx : BitVec 5) (v : Channel) : EventWord :=
  2#64 ||| (chanIdx.setWidth 64 <<< 16) ||| (v.setWidth 64 <<< 21)

/-- DECISION event (R72). -/
def decisionEvent (act : Bool) (chanIdx : BitVec 5) (v : Channel) (threshold : BitVec 11) : EventWord :=
  3#64 ||| ((BitVec.ofBool act).setWidth 64 <<< 8) ||| (chanIdx.setWidth 64 <<< 16)
    ||| (v.setWidth 64 <<< 21) ||| (threshold.setWidth 64 <<< 32)

/-- FAULT event (R88). -/
def faultEvent (c : FaultCause) : EventWord := 4#64 ||| ((causeCode c).setWidth 64 <<< 4)

/-! ## The fields of an event word (R53) -/

/-- `KIND = e[3:0]`. -/
def eventKind (e : EventWord) : BitVec 4 := e.extractLsb' 0 4
/-- `CODE = e[7:4]`. -/
def eventCode (e : EventWord) : BitVec 4 := e.extractLsb' 4 4
/-- `ACTIVATE = e[8]`. -/
def eventActivate (e : EventWord) : BitVec 1 := e.extractLsb' 8 1
/-- `CHAN_IDX = e[20:16]`. -/
def eventChanIdx (e : EventWord) : BitVec 5 := e.extractLsb' 16 5
/-- `VALUE = e[31:21]`. -/
def eventValue (e : EventWord) : BitVec 11 := e.extractLsb' 21 11
/-- `THRESHOLD = e[42:32]`. -/
def eventThreshold (e : EventWord) : BitVec 11 := e.extractLsb' 32 11

end Sys2Proof.Machine
end

