-- ==== Sys2Proof/Machine/Operands.lean ====
section
/-! DEFINITION. Where a command's operands come from besides its word (20_memory.md R26 to R32): the bytes of the data
block. Reading changes nothing (R32), and there is no write (R10). -/

namespace Sys2Proof.Machine

/-- `In(k)` (R28): byte `k` of the current command's data block. For `k >= LEN` it has no meaning: a free value that no
command rule reads (log entry 7). -/
def State.inByte (s : State) (k : Nat) : Byte := (s.block[k]?).getD (Config.outOfRangeByte k)

/-- `In(a), ..., In(b-1)`, the bytes at offsets `[a, b)` in ascending order, empty when `b <= a` (R11). -/
def State.inRange (s : State) (a b : Nat) : List Byte := (List.range' a (b - a)).map s.inByte

end Sys2Proof.Machine
end

