-- ==== Sys2Proof/Machine/Ops.lean ====
section
/-! DEFINITION. The engine's shared operations (00_scope.md R10): driving the output ports, rejecting, taking a fault, the
fault state, and reset. -/

namespace Sys2Proof.Machine

/-! ## The output ports -/

/-- `respond(w)` (R10, R49). -/
def State.respond (s : State) (w : Word) : State := { s with out := { s.out with resp := some w } }

/-- `emit(e)` appends an event word (R10, R53). -/
def State.emit (s : State) (e : EventWord) : State := { s with out := { s.out with events := s.out.events ++ [e] } }

/-- `actuate(b)` drives one actuation strobe (R10, R96). -/
def State.actuate (s : State) (b : Bool) : State := { s with out := { s.out with strobes := s.out.strobes ++ [b] } }

/-- Drives `RES_CH[1..16]` with the channels, each zero-extended to 16 bits (R52, R67). -/
def State.driveChannels (s : State) (ch : ChannelSet) : State :=
  { s with out := { s.out with resCh := ch.map (·.setWidth 16) } }

/-- Nothing is driven yet, or any more: every command starts so, and a waiting engine drives nothing (R40, R102). -/
def State.quiet (s : State) : State := { s with out := Reply.idle }

/-! ## Rejections and faults -/

/-- `reject(r)` (R86): one REJECT event, then the response. It writes no state element. -/
def State.reject (s : State) (r : RejectReason) : State := (s.emit (rejectEvent r)).respond (rejectResponse r)

/-- `raise Fault(c)` (R88), taking the exception: FAULTED and FCAUSE are set, one FAULT event, then the response. There is
no program counter and no saved state. Reached only with FAULTED = 0: `operate` sees to it (R89). -/
def State.raiseFault (s : State) (c : FaultCause) : State :=
  (({ s with faulted := true, fcause := causeCode c }).emit (faultEvent c)).respond (faultResponse (causeCode c))

/-- What any command does in the fault state (R89): it answers with the latched cause and does nothing else. -/
def State.nullEffect (s : State) : State := s.respond (faultResponse s.fcause)

/-! ## One command -/

/-- Runs one command whose data block must have `n` bytes (R48). R47 step 1: in the fault state the command has only its
null effect (R89), otherwise it has the effect `body`. The reply starts with nothing driven. A data block of another
length is a host that breaks its "must" (R98, log entry 5): refused. -/
def operate (n : Nat) (body : State → State) (s : State) : Result :=
  if s.block.length = n then .next (if s.faulted then s.quiet.nullEffect else body s.quiet)
  else .refused .blockLength

/-- A command word that is no command (R47 steps 2 and 3): it raises its fault. -/
def execRejected (n : Nat) (why : DecodeFault) (s : State) : Result :=
  operate n (fun s => s.raiseFault why.cause) s

/-- The engine takes the host's next command: its ports present the data block and `NOW_SEC` (R98). -/
def State.accept (s : State) (tx : Transaction) (rest : List HostAction) : State :=
  { s with block := tx.data, nowSec := tx.now, pending := rest }

/-! ## Reset (R103) -/

/-- Reset of the four persistent state elements (R103), the only way out of the fault state (R104). It drives nothing. -/
def State.resetEngine (s : State) : State :=
  { s with gateValid := false, gateLast := 0#64, faulted := false, fcause := 0#4 }

/-- A reset asserted while a command is in progress "takes effect either before that command or after it has completed"
(R104): before it when `first` is true. -/
def resetAround (first : Bool) (run : State → Result) (s : State) : Result :=
  if first then run s.resetEngine
  else
    match run s with
    | .next t => .next t.resetEngine
    | .fault r => .fault r
    | .refused r => .refused r

/-- Takes one free value: the counter of draws advances (log entry 6). -/
def State.draw (s : State) : State := { s with draws := s.draws + 1 }

end Sys2Proof.Machine
end

