-- ==== Sys2Proof/Machine/Checksum.lean ====
section
/-! DEFINITION. The checksum engine (40_checksum.md R59 to R63): `update`, `digest`, CRC_UPDATE and CRC_DIGEST. -/

namespace Sys2Proof.Machine

/-- One of the eight iterations of R59: shift left within 8 bits, and XOR with 0xD5 if the high bit was set. -/
def crcShift (a : Byte) : Byte := if a.msb then (a <<< 1) ^^^ Config.crcPoly else a <<< 1

/-- `f` applied `n` times. -/
def iterate {α : Type} (f : α → α) : Nat → α → α
  | 0, a => a
  | n + 1, a => iterate f n (f a)

/-- `update(acc, b)` (R59). -/
def update (acc b : Byte) : Byte := iterate crcShift 8 (acc ^^^ b)

/-- `digest(s)` (R61): folds the bytes in order from accumulator 0. -/
def digest (bytes : List Byte) : Byte := bytes.foldl update Config.crcInit

/-- CRC_UPDATE (R60). -/
def execCrcUpdate (acc data : BitVec 8) (s : State) : Result :=
  operate 0 (fun s => s.respond (crcResponse (update acc data))) s

/-- CRC_DIGEST after the decode checks (R62). -/
def digestBlock (len : Nat) (s : State) : State :=
  if Config.frameMax < len then s.raiseFault .lenOutOfRange
  else s.respond (crcResponse (digest (s.inRange 0 len)))

/-- CRC_DIGEST (R62). -/
def execCrcDigest (len : BitVec 8) (s : State) : Result := operate len.toNat (digestBlock len.toNat) s

end Sys2Proof.Machine
end

