-- ==== Sys2Proof/Machine/Unpack.lean ====
section
/-! DEFINITION. The channel unpacker (41_unpack.md R64 to R69): the bit-cursor algorithm, its closed form, the packer of
R68, and UNPACK. -/

namespace Sys2Proof.Machine

/-- The bit cursor (R13, R65): a byte offset and a bit offset within the byte, 0 to 7. -/
structure Cursor where
  byte : Nat
  bit  : Nat
deriving DecidableEq, Repr

/-- The cursor after `take` more bits (R65): it rolls over "to the next byte whenever 8 bits are consumed". -/
def Cursor.advance (c : Cursor) (take : Nat) : Cursor :=
  if c.bit + take = 8 then ⟨c.byte + 1, 0⟩ else ⟨c.byte, c.bit + take⟩

/-- The inner loop of R65 for one channel: `filled` bits of `v` are set, and each turn takes up to `8 - bit` bits from the
current byte to the lowest unfilled place of `v`. The first argument bounds the turns; each takes at least one bit, so 11
turns are enough. Answers the channel's value and the cursor. -/
def fillLane (p : Nat → Byte) : Nat → Cursor → Nat → Nat → Nat × Cursor
  | 0, c, _, v => (v, c)
  | turns + 1, c, filled, v =>
    if filled < Config.channelBits then
      let take := min (8 - c.bit) (Config.channelBits - filled)
      let chunk := ((p c.byte).toNat >>> c.bit) &&& (2 ^ take - 1)
      fillLane p turns (c.advance take) (filled + take) (v ||| (chunk <<< filled))
    else (v, c)

/-- The outer loop of R65: the next `n` channels from the cursor, in order. -/
def fillLanes (p : Nat → Byte) : (n : Nat) → Cursor → List Nat
  | 0, _ => []
  | n + 1, c =>
    let lane := fillLane p Config.channelBits c 0 0
    lane.1 :: fillLanes p n lane.2

/-- `unpack(p)` (R64, R65), the normative bit-cursor algorithm, over the payload's bytes `p 0, p 1, ...`. Index `i - 1` of
the result holds `ch[i]`. -/
def unpack (p : Nat → Byte) : ChannelSet :=
  Vector.ofFn fun i => BitVec.ofNat 11 ((fillLanes p Config.channels ⟨0, 0⟩)[i.val]?.getD 0)

/-- The payload as one little-endian integer over its first `n` bytes, `S` of R66. -/
def payloadValue (p : Nat → Byte) : Nat → Nat
  | 0 => 0
  | n + 1 => payloadValue p n + ((p n).toNat <<< (8 * n))

/-- The closed form of R66: all lanes at once. -/
def unpackParallel (p : Nat → Byte) : ChannelSet :=
  Vector.ofFn fun i => BitVec.ofNat 11 ((payloadValue p Config.payloadBytes >>> (11 * i.val)) &&& 0x7FF)

/-- The channels as one integer over the first `n` lanes, `S` of R68. -/
def channelsValue (ch : ChannelSet) : Nat → Nat
  | 0 => 0
  | n + 1 => channelsValue ch n + (((ch[n]?).getD 0#11).toNat <<< (11 * n))

/-- `pack(ch)`, byte `k` of it (R68): "a test harness function, not part of the engine". -/
def packByte (ch : ChannelSet) (k : Nat) : Byte :=
  BitVec.ofNat 8 ((channelsValue ch Config.channels >>> (8 * k)) &&& 0xFF)

/-- `pack(ch)` (R68): 22 bytes. -/
def pack (ch : ChannelSet) : List Byte := (List.range Config.payloadBytes).map (packByte ch)

/-- UNPACK after the decode checks (R67): the range check comes first, then the underrun check, both before any read. -/
def unpackBlock (len : Nat) (s : State) : State :=
  if Config.frameMax < len then s.raiseFault .lenOutOfRange
  else if len < Config.payloadBytes then s.raiseFault .unpackUnderrun
  else (s.driveChannels (unpack s.inByte)).respond okResponse

/-- UNPACK (R67). -/
def execUnpack (len : BitVec 8) (s : State) : Result := operate len.toNat (unpackBlock len.toNat) s

end Sys2Proof.Machine
end

