-- ==== Sys2Proof/Machine/Process.lean ====
section
/-! DEFINITION. The frame validator, the rate gate and the threshold comparator (42_process.md R70 to R84): PROCESS. -/

namespace Sys2Proof.Machine

/-- The three validation steps of a frame of `len` bytes, in order (R73, R74, R75): the rejection, or `none` where the frame
passes. Bytes 0 and 1 are never read (R71). -/
def frameCheck (len : Nat) (s : State) : Option RejectReason :=
  if len < Config.frameMin ∨ Config.frameMax < len then some .invalidLength
  else if s.inByte 2 ≠ Config.typeChannelsPacked then some .invalidType
  else if digest (s.inRange 2 (len - 1)) ≠ s.inByte (len - 1) then some .checksumMismatch
  else none

/-- `now - last`, the exact difference of two signed 64-bit times, without wrap (R9, R78, D7). -/
def elapsed (now last : Time) : Int := now.toInt - last.toInt

/-- The rate gate (R78): open when never evaluated, or when at least one whole second has elapsed. -/
def gateOpen (s : State) (now : Time) : Bool :=
  !s.gateValid || decide (Config.ratePeriod ≤ elapsed now s.gateLast)

/-- `ch[CHAN_IDX]`, counted from 1 (R80); `none` where the index is outside 1 to 16 (R79). -/
def channelAt (ch : ChannelSet) (chanIdx : BitVec 5) : Option Channel :=
  if chanIdx.toNat < 1 ∨ Config.channels < chanIdx.toNat then none else ch[chanIdx.toNat - 1]?

/-- The threshold comparator (R80): strictly greater, unsigned. -/
def comparator (v : Channel) (threshold : BitVec 11) : Bool := decide (threshold.toNat < v.toNat)

/-- Emission (R81): DECODE, DECISION, the strobe, the gate, the response, in this order. -/
def State.emitDecision (s : State) (chanIdx : BitVec 5) (threshold : BitVec 11) (v : Channel) (now : Time) : State :=
  let act := comparator v threshold
  let s := s.emit (decodeEvent chanIdx v)
  let s := s.emit (decisionEvent act chanIdx v threshold)
  let s := s.actuate act
  let s := { s with gateLast := now, gateValid := true }
  s.respond (decisionResponse v act)

/-- An accepted frame whose channels are `ch` (R78 to R82): suppressed by a closed gate, rejected for its channel index, or
decided. -/
def decideFrame (ch : ChannelSet) (chanIdx : BitVec 5) (threshold : BitVec 11) (now : Time) (s : State) : State :=
  if gateOpen s now then
    match channelAt ch chanIdx with
    | none => s.reject (.configChannelOutOfRange chanIdx)
    | some v => s.emitDecision chanIdx threshold v now
  else s.respond okResponse

/-- PROCESS after the decode checks (R72). `NOW_SEC` is sampled once (R95). -/
def processFrame (len : Nat) (chanIdx : BitVec 5) (threshold : BitVec 11) (s : State) : State :=
  let now := s.nowSec
  match frameCheck len s with
  | some r => s.reject r
  | none =>
    if len < Config.processMinLen then s.raiseFault .unpackUnderrun
    else decideFrame (unpack fun k => s.inByte (3 + k)) chanIdx threshold now s

/-- PROCESS (R72). -/
def execProcess (len : BitVec 8) (chanIdx : BitVec 5) (threshold : BitVec 11) (s : State) : Result :=
  operate len.toNat (processFrame len.toNat chanIdx threshold) s

end Sys2Proof.Machine
end

