-- ==== Sys2Proof/Machine/Dispatch.lean ====
section
/-! DEFINITION. The dispatch: one arm per instruction, each a direct call of its meaning (30_encoding.md R42). -/

namespace Sys2Proof.Machine

def exec (i : Instr) (s : State) : Host.Outcome State Fault Refusal :=
  match i with
  | .crcUpdate acc data => Sys2Proof.Machine.execCrcUpdate acc data s
  | .crcDigest len => Sys2Proof.Machine.execCrcDigest len s
  | .unpack len => Sys2Proof.Machine.execUnpack len s
  | .process len chanIdx threshold => Sys2Proof.Machine.execProcess len chanIdx threshold s

end Sys2Proof.Machine
end

