-- ==== Sys2Proof/Machine/Step.lean ====
section
/-! DEFINITION. One step of the machine (20_memory.md R35: "An engine step is therefore one whole command"): the host's next
action, whole. -/

namespace Sys2Proof.Machine

/-- Decodes a command word and runs it (R47). The transaction stands on the ports. -/
def runWord (cmd : Word) (s : State) : Result :=
  match decode cmd with
  | .instr i => exec i s
  | .rejected why => execRejected (blockLen cmd) why s

/-- One step: the host's next action. With none pending the engine waits (R33, R102, log entry 3). -/
def step (s : State) : Host.Outcome State Fault Refusal :=
  match s.pending with
  | [] => .next s.quiet
  | .reset :: rest => .next { s with pending := rest }.resetEngine.quiet
  | .command tx :: rest => runWord tx.cmd (s.accept tx rest)
  | .commandUnderReset tx :: rest =>
    resetAround (Config.resetFirst s.draws) (runWord tx.cmd) (s.draw.accept tx rest)

/-- The host's next command is the one that stands in a table word, with the `NOW_SEC` the time input presents now (log
entries 1 and 14). -/
def State.withFetchWord (s : State) (nbits w : Nat) : State :=
  match tableTransaction nbits w s.nowSec with
  | some tx => { s with pending := .command tx :: s.pending }
  | none => s

end Sys2Proof.Machine
end

