-- ==== Sys2Proof/Machine/Assembler.lean ====
section
/-! DEFINITION. The assembler lines of 30_encoding.md R57: the transaction that one line of text stands for. Text is a list
of characters. No command rule depends on this file (D22). -/

namespace Sys2Proof.Machine

/-- The words of a line; spaces and commas part them (DEDUCED from R57's four line forms, log entry 11). -/
def lineTokens (line : List Char) : List (List Char) :=
  (line.splitOnP fun c => c == ' ' || c == ',').filter (· ≠ [])

/-- The digit of a character: 0 to 9, A to F, a to f. -/
def digitOf (c : Char) : Option Nat :=
  if 48 ≤ c.toNat ∧ c.toNat ≤ 57 then some (c.toNat - 48)
  else if 65 ≤ c.toNat ∧ c.toNat ≤ 70 then some (c.toNat - 55)
  else if 97 ≤ c.toNat ∧ c.toNat ≤ 102 then some (c.toNat - 87)
  else none

/-- Digits read in a base, on top of the value `acc` read so far. -/
def digitsFrom (base : Nat) : Nat → List Char → Option Nat
  | acc, [] => some acc
  | acc, c :: cs =>
    match digitOf c with
    | some d => if d < base then digitsFrom base (base * acc + d) cs else none
    | none => none

/-- A number of at least one digit, below `bound`. -/
def numberBelow (base bound : Nat) (cs : List Char) : Option Nat :=
  if cs = [] then none else (digitsFrom base 0 cs).filter (· < bound)

/-- `<u8>` and the bytes of a data block: "hexadecimal without a prefix" (R57). -/
def parseByte (cs : List Char) : Option Byte := (numberBelow 16 256 cs).map (BitVec.ofNat 8)

/-- `<n>`, `<u5>`, `<u11>`: decimal (R57's example `len=26, chan=3, thr=1000`). -/
def parseUnsigned (n : Nat) (cs : List Char) : Option (BitVec n) := (numberBelow 10 (2 ^ n) cs).map (BitVec.ofNat n)

/-- `<s64>`: decimal with an optional minus sign (R57, R94). -/
def parseTime (cs : List Char) : Option Time :=
  match cs with
  | '-' :: digits => (numberBelow 10 (2 ^ 63 + 1) digits).map fun n => BitVec.ofInt 64 (-(n : Int))
  | digits => (numberBelow 10 (2 ^ 63) digits).map (BitVec.ofNat 64)

/-- What follows `key` in a word that begins with it. -/
def afterKey : List Char → List Char → Option (List Char)
  | [], word => some word
  | _ :: _, [] => none
  | k :: ks, c :: cs => if k = c then afterKey ks cs else none

/-- A `key=value` word, its value read by `parse`. -/
def clause {α : Type} (key : List Char) (parse : List Char → Option α) (word : List Char) : Option α :=
  (afterKey key word).bind parse

/-- The data block of a line: nothing, or a colon and the bytes. -/
def parseBlock : List (List Char) → Option (List Byte)
  | [] => some []
  | [':'] :: bytes => bytes.mapM parseByte
  | _ => none

/-- A line's instruction, its data block, and its `@ now=` clause if it has one. -/
def parseLine (line : List Char) : Option (Instr × List Byte × Option Time) :=
  match lineTokens line with
  | ['C', 'R', 'C', '_', 'U', 'P', 'D', 'A', 'T', 'E'] :: acc :: data :: [] => do
    let a ← clause ['a', 'c', 'c', '='] parseByte acc
    let d ← clause ['d', 'a', 't', 'a', '='] parseByte data
    some (.crcUpdate a d, [], none)
  | ['C', 'R', 'C', '_', 'D', 'I', 'G', 'E', 'S', 'T'] :: len :: rest => do
    let n ← clause ['l', 'e', 'n', '='] (parseUnsigned 8) len
    let bytes ← parseBlock rest
    some (.crcDigest n, bytes, none)
  | ['U', 'N', 'P', 'A', 'C', 'K'] :: len :: rest => do
    let n ← clause ['l', 'e', 'n', '='] (parseUnsigned 8) len
    let bytes ← parseBlock rest
    some (.unpack n, bytes, none)
  | ['P', 'R', 'O', 'C', 'E', 'S', 'S'] :: len :: chan :: thr :: ['@'] :: now :: rest => do
    let n ← clause ['l', 'e', 'n', '='] (parseUnsigned 8) len
    let c ← clause ['c', 'h', 'a', 'n', '='] (parseUnsigned 5) chan
    let t ← clause ['t', 'h', 'r', '='] (parseUnsigned 11) thr
    let sample ← clause ['n', 'o', 'w', '='] parseTime now
    let bytes ← parseBlock rest
    some (.process n c t, bytes, some sample)
  | _ => none

/-- The transaction of a line (R57): its word by R43 to R46, its bytes, and its `NOW_SEC` sample; a line without the clause
takes the sample `present` that the time input presents. A line whose bytes are not exactly LEN is no line (R57, R98). -/
def assemble (present : Time) (line : List Char) : Option Transaction :=
  match parseLine line with
  | some (i, bytes, now) => if bytes.length = i.blockLen then some ⟨encode i, bytes, now.getD present⟩ else none
  | none => none

end Sys2Proof.Machine
end

