-- ==== Sys2Proof/Safety.lean ====
section
/-! DEFINITION. What counts as a legal state and a safe run, in the terms the statements use. -/

namespace Sys2Proof.Machine

/-! ## Runs -/

/-- `k` steps, stopping at the first fault or refusal (R35: "every run of the engine is a sequence of such steps"). -/
def run : Nat → State → Result
  | 0, s => .next s
  | k + 1, s =>
    match step s with
    | .next t => run k t
    | .fault r => .fault r
    | .refused r => .refused r

/-- The `NOW_SEC` samples of the decisions emitted in the next `k` steps, in order (R81, R96: a decision drives a strobe). -/
def emissionTimes : Nat → State → List Int
  | 0, _ => []
  | k + 1, s =>
    match step s with
    | .next t => (if t.out.strobes = [] then [] else [t.nowSec.toInt]) ++ emissionTimes k t
    | .fault _ => []
    | .refused _ => []

/-- The action is a plain command, with no reset (R98). -/
def isPlainCommand : HostAction → Bool
  | .command _ => true
  | .reset => false
  | .commandUnderReset _ => false

/-- The host sends commands only: it asserts no reset in what is pending. -/
abbrev State.noResetPending (s : State) : Prop := ∀ a ∈ s.pending, isPlainCommand a = true

/-- The host delivers exactly LEN bytes with every pending command (R48, R98). -/
abbrev State.hostDelivers (s : State) : Prop := ∀ a ∈ s.pending, Sys2Proof.HostAction.delivered a = true

/-! ## Legal states -/

/-- The fault latch (R20, R21): no fault and cause 0, or a fault and a cause 1 to 4; "The values 5 to 15 are never written". -/
abbrev State.faultLatchLegal (s : State) : Prop :=
  (s.faulted = false ∧ s.fcause = 0#4) ∨ (s.faulted = true ∧ 1 ≤ s.fcause.toNat ∧ s.fcause.toNat ≤ 4)

/-- The gate (R18, R19, R103): never evaluated, then the timestamp is still its reset value. -/
abbrev State.gateLegal (s : State) : Prop := s.gateValid = false → s.gateLast = 0#64

/-- A response word the engine can produce (R49, R50, R51, U10). -/
abbrev respLegal (w : Word) : Prop :=
  ((respStatus w).toNat ≤ 4 ∨ respStatus w = 0xF#4)
  ∧ w.extractLsb' 6 2 = 0#2 ∧ w.extractLsb' 27 1 = 0#1
  ∧ (respStatus w = 0xF#4 ↔ respFcause w ≠ 0#4) ∧ (respFcause w).toNat ≤ 4
  ∧ (respDecided w = 0#1 → respActivate w = 0#1 ∧ respChval w = 0#11)
  ∧ (respDecided w = 1#1 → respStatus w = 0#4 ∧ respResult8 w = 0#8)
  ∧ (respResult8 w ≠ 0#8 → respStatus w = 0#4)

/-- An event word the engine can produce (R53, U10). -/
abbrev eventLegal (e : EventWord) : Prop :=
  1 ≤ (eventKind e).toNat ∧ (eventKind e).toNat ≤ 4
  ∧ e.extractLsb' 9 7 = 0#7 ∧ e.extractLsb' 43 21 = 0#21
  ∧ (eventKind e = 1#4 ∨ eventKind e = 4#4 →
      1 ≤ (eventCode e).toNat ∧ (eventCode e).toNat ≤ 4 ∧ eventValue e = 0#11)
  ∧ (eventKind e = 2#4 ∨ eventKind e = 3#4 → eventCode e = 0#4)
  ∧ (eventKind e ≠ 3#4 → eventActivate e = 0#1 ∧ eventThreshold e = 0#11)
  ∧ (eventKind e = 4#4 ∨ eventKind e = 1#4 ∧ eventCode e ≠ 4#4 → eventChanIdx e = 0#5)

/-- A reply the engine can give (R40, R52, R96, R97): at most two events, at most one strobe, result words of 11 bits, and
every word well formed. -/
abbrev Reply.legal (r : Reply) : Prop :=
  (∀ w ∈ r.resp, respLegal w) ∧ (∀ e ∈ r.events, eventLegal e)
  ∧ r.events.length ≤ 2 ∧ r.strobes.length ≤ 1 ∧ (∀ i : Fin 16, r.resCh[i].toNat ≤ 2047)

/-- The invariant of the machine. -/
abbrev State.Inv (s : State) : Prop := s.faultLatchLegal ∧ s.gateLegal ∧ s.out.legal

/-! ## The wiring table of R66 -/

/-- One wire bundle: `width` bits of payload byte `byte` from bit `lo`, to bits of channel `channel` from bit `dest`. -/
structure Wire where
  channel : Nat
  byte    : Nat
  lo      : Nat
  dest    : Nat
  width   : Nat
deriving DecidableEq, Repr

/-- The wiring table of R66, one line per channel. -/
def wiringTable : List Wire :=
  [⟨1, 0, 0, 0, 8⟩, ⟨1, 1, 0, 8, 3⟩,
   ⟨2, 1, 3, 0, 5⟩, ⟨2, 2, 0, 5, 6⟩,
   ⟨3, 2, 6, 0, 2⟩, ⟨3, 3, 0, 2, 8⟩, ⟨3, 4, 0, 10, 1⟩,
   ⟨4, 4, 1, 0, 7⟩, ⟨4, 5, 0, 7, 4⟩,
   ⟨5, 5, 4, 0, 4⟩, ⟨5, 6, 0, 4, 7⟩,
   ⟨6, 6, 7, 0, 1⟩, ⟨6, 7, 0, 1, 8⟩, ⟨6, 8, 0, 9, 2⟩,
   ⟨7, 8, 2, 0, 6⟩, ⟨7, 9, 0, 6, 5⟩,
   ⟨8, 9, 5, 0, 3⟩, ⟨8, 10, 0, 3, 8⟩,
   ⟨9, 11, 0, 0, 8⟩, ⟨9, 12, 0, 8, 3⟩,
   ⟨10, 12, 3, 0, 5⟩, ⟨10, 13, 0, 5, 6⟩,
   ⟨11, 13, 6, 0, 2⟩, ⟨11, 14, 0, 2, 8⟩, ⟨11, 15, 0, 10, 1⟩,
   ⟨12, 15, 1, 0, 7⟩, ⟨12, 16, 0, 7, 4⟩,
   ⟨13, 16, 4, 0, 4⟩, ⟨13, 17, 0, 4, 7⟩,
   ⟨14, 17, 7, 0, 1⟩, ⟨14, 18, 0, 1, 8⟩, ⟨14, 19, 0, 9, 2⟩,
   ⟨15, 19, 2, 0, 6⟩, ⟨15, 20, 0, 6, 5⟩,
   ⟨16, 20, 5, 0, 3⟩, ⟨16, 21, 0, 3, 8⟩]

/-- The channels carry the bits of a bundle from the payload (R66). -/
def Wire.holds (x : Wire) (p : Nat → Byte) (ch : ChannelSet) : Prop :=
  ∀ v ∈ ch[x.channel - 1]?, v.extractLsb' x.dest x.width = (p x.byte).extractLsb' x.lo x.width

/-! ## Frames, in the terms of R70 -/

/-- The data block is a frame that passes the three validation steps (R73, R74, R75), said over the block's bytes. -/
abbrev State.validFrame (s : State) (len : Nat) : Prop :=
  4 ≤ len ∧ len ≤ 64 ∧ s.inByte 2 = 0x16#8 ∧ digest (s.inRange 2 (len - 1)) = s.inByte (len - 1)

/-- The channels of a frame (R77): the 22 bytes that start at offset 3. -/
def State.frameChannels (s : State) : ChannelSet := unpack fun k => s.inByte (3 + k)

/-- "never evaluated", or at least one whole second since the last emission (R78), said without the model's gate test. -/
abbrev State.gateIsOpen (s : State) : Prop := s.gateValid = false ∨ s.nowSec.toInt - s.gateLast.toInt ≥ 1

end Sys2Proof.Machine
end

