-- ==== Sys2Proof/Certificates/Slice0/Obligations.lean ====
section
/-! DEFINITION. The statements about the engine, for the provers. Each docstring names the rule it says; "derived" ones say
what they rest on. A reply is written out: response word, sixteen result words, events, strobes. -/

open Sys2Proof Sys2Proof.Machine

/-! ## Encoding -/

/-- Derived from R41 to R46 and R55: no bit of any command's encoding is dropped. -/
def Obligations.DecodeOfEncodeIsTheInstruction : Prop := ∀ i : Instr, decode (encode i) = .instr i

/-- Derived from R41 to R47: a word that decodes is the one encoding of its command; so reserved bits are 0 in it. -/
def Obligations.EncodeOfDecodedWordIsTheWord : Prop :=
  ∀ (w : Word) (i : Instr), decode w = .instr i → encode i = w

/-- Derived from R42, R47 and spec/opcode_table.json: a word decodes to a row's command exactly when it has the row's fixed
bits. -/
def Obligations.DecodingFollowsTheOpcodeTable : Prop :=
  ∀ (w : Word) (r : OpcodeRow), r ∈ opcodeTable →
    (r.fits w = true ↔ ∃ i, decode w = .instr i ∧ i.mnemonic = r.mnemonic)

/-- Derived from R47 steps 2 and 3, over the word's bits: which words are rejected, and by which name. -/
def Obligations.RejectedWordsAreIllegalOrReserved : Prop :=
  ∀ w : Word,
    (decode w = .rejected .illegalOp ↔
      w.extractLsb' 0 4 ≠ 1#4 ∧ w.extractLsb' 0 4 ≠ 2#4 ∧ w.extractLsb' 0 4 ≠ 3#4 ∧ w.extractLsb' 0 4 ≠ 4#4)
    ∧ (decode w = .rejected .reservedNonzero ↔
      w.extractLsb' 0 4 = 1#4 ∧ (w.extractLsb' 4 4 ≠ 0#4 ∨ w.extractLsb' 24 8 ≠ 0#8)
      ∨ (w.extractLsb' 0 4 = 2#4 ∨ w.extractLsb' 0 4 = 3#4) ∧ (w.extractLsb' 4 4 ≠ 0#4 ∨ w.extractLsb' 16 16 ≠ 0#16)
      ∨ w.extractLsb' 0 4 = 4#4 ∧ w.extractLsb' 4 4 ≠ 0#4)

/-- Derived from R43 to R47 and R57, on words the spec writes out (R57, R60, R62; 95_test_vectors.md T-U, T-F). -/
def Obligations.SpecWordsDecode : Prop :=
  decode 0x00010001#32 = .instr (.crcUpdate 0x00#8 0x01#8)
  ∧ decode 0x00000902#32 = .instr (.crcDigest 9#8)
  ∧ decode 0x00001603#32 = .instr (.unpack 22#8)
  ∧ decode 0x7D031A04#32 = .instr (.process 26#8 3#5 1000#11)
  ∧ decode 0x00000005#32 = .rejected .illegalOp
  ∧ decode 0x000100F1#32 = .rejected .reservedNonzero

/-- Derived from R48: the data block's length, over the word's bits. -/
def Obligations.BlockLengthComesFromTheWord : Prop :=
  ∀ w : Word,
    (w.extractLsb' 0 4 = 2#4 ∨ w.extractLsb' 0 4 = 3#4 ∨ w.extractLsb' 0 4 = 4#4 →
      blockLen w = (w.extractLsb' 8 8).toNat)
    ∧ (¬(w.extractLsb' 0 4 = 2#4 ∨ w.extractLsb' 0 4 = 3#4 ∨ w.extractLsb' 0 4 = 4#4) → blockLen w = 0)

/-- Derived from R30 (D17) and R48: a transaction written as bytes reads back, and what follows it is left over. That the
data block follows the word is the model's choice (log entry 10). -/
def Obligations.SerialisedTransactionReadsBack : Prop :=
  ∀ (tx : Transaction) (more : List Byte), tx.delivered = true →
    readTransaction tx.now (tx.serialise ++ more) = some (tx, more)

/-- Derived from R57 and R98: a line that assembles is a command, with exactly LEN bytes. How a line is cut into words is the
model's reading (log entry 11). -/
def Obligations.AssembledLinesAreCommands : Prop :=
  ∀ (present : Time) (line : List Char) (tx : Transaction), assemble present line = some tx →
    tx.delivered = true ∧ ∃ i, decode tx.cmd = .instr i

/-! ## A step -/

/-- Derived from R35, R47 and R98: when the host's next command is a decoded instruction, the step is that instruction, run
with the data block and `NOW_SEC` on the ports. The host's queue is the model's own (log entry 1). -/
def Obligations.StepRunsTheDecodedCommand : Prop :=
  ∀ (s : State) (tx : Transaction) (rest : List HostAction) (i : Instr),
    s.pending = .command tx :: rest → decode tx.cmd = .instr i →
    step s = exec i { s with block := tx.data, nowSec := tx.now, pending := rest }

/-- Derived from R42 and R88: an illegal opcode takes the ILLEGAL_OP fault. -/
def Obligations.IllegalOpcodeFaults : Prop :=
  ∀ (s : State) (tx : Transaction) (rest : List HostAction),
    s.pending = .command tx :: rest → s.faulted = false →
    (tx.cmd.extractLsb' 0 4 = 0#4 ∨ 5 ≤ (tx.cmd.extractLsb' 0 4).toNat) → tx.data = [] →
    step s = .next { s with
      block := [], nowSec := tx.now, pending := rest, faulted := true, fcause := 1#4,
      out := ⟨some 0x1000000F#32, Vector.replicate 16 0#16, [0x0000000000000014#64], []⟩ }

/-- Derived from R47 step 3 with R88: a nonzero reserved field takes the RESERVED_NONZERO fault, in every format. -/
def Obligations.NonzeroReservedFieldFaults : Prop :=
  ∀ (s : State) (tx : Transaction) (rest : List HostAction),
    s.pending = .command tx :: rest → s.faulted = false →
    (tx.cmd.extractLsb' 0 4 = 1#4 ∧ (tx.cmd.extractLsb' 4 4 ≠ 0#4 ∨ tx.cmd.extractLsb' 24 8 ≠ 0#8) ∧ tx.data = []
      ∨ (tx.cmd.extractLsb' 0 4 = 2#4 ∨ tx.cmd.extractLsb' 0 4 = 3#4)
          ∧ (tx.cmd.extractLsb' 4 4 ≠ 0#4 ∨ tx.cmd.extractLsb' 16 16 ≠ 0#16)
          ∧ tx.data.length = (tx.cmd.extractLsb' 8 8).toNat
      ∨ tx.cmd.extractLsb' 0 4 = 4#4 ∧ tx.cmd.extractLsb' 4 4 ≠ 0#4
          ∧ tx.data.length = (tx.cmd.extractLsb' 8 8).toNat) →
    step s = .next { s with
      block := tx.data, nowSec := tx.now, pending := rest, faulted := true, fcause := 2#4,
      out := ⟨some 0x2000000F#32, Vector.replicate 16 0#16, [0x0000000000000024#64], []⟩ }

/-- R89: in the fault state each command, whatever its word, answers STATUS = 0xF with the latched cause and does nothing
else; and no step but a reset leaves the fault state or changes the latched cause. -/
def Obligations.FaultStateAnswersOnlyItsCause : Prop :=
  (∀ (s : State) (tx : Transaction) (rest : List HostAction),
    s.pending = .command tx :: rest → s.faulted = true → tx.data.length = blockLen tx.cmd →
    step s = .next { s with
      block := tx.data, nowSec := tx.now, pending := rest,
      out := ⟨some ((s.fcause.setWidth 32 <<< 28) ||| 0xF#32), Vector.replicate 16 0#16, [], []⟩ })
  ∧ (∀ s t : State, s.faulted = true → (∀ a rest, s.pending = a :: rest → isPlainCommand a = true) → step s = .next t →
    t.faulted = true ∧ t.fcause = s.fcause)

/-- Derived from R89 and R92 (the spec's sentence: "Once the engine has faulted, it gives no further decisions until reset,
whatever it is sent"): over any run of commands and idle steps the fault state stays, with its cause and the gate, and no
decision is emitted. -/
def Obligations.FaultStateIsSticky : Prop :=
  ∀ (k : Nat) (s t : State), s.faulted = true → s.noResetPending → run k s = .next t →
    t.faulted = true ∧ t.fcause = s.fcause ∧ t.gateValid = s.gateValid ∧ t.gateLast = s.gateLast ∧ emissionTimes k s = []

/-- R88: fault entry is precise. A command that takes the machine into the fault state, whatever its word, writes FAULTED and
FCAUSE and nothing else of the state, emits one FAULT event, and answers STATUS = 0xF with its cause. -/
def Obligations.FaultEntryIsPrecise : Prop :=
  ∀ (s t : State) (tx : Transaction) (rest : List HostAction),
    s.pending = .command tx :: rest → s.faulted = false → step s = .next t → t.faulted = true →
    ∃ c : BitVec 4, 1 ≤ c.toNat ∧ c.toNat ≤ 4 ∧
      t = { s with
        block := tx.data, nowSec := tx.now, pending := rest, faulted := true, fcause := c,
        out := ⟨some ((c.setWidth 32 <<< 28) ||| 0xF#32), Vector.replicate 16 0#16,
          [4#64 ||| (c.setWidth 64 <<< 4)], []⟩ }

/-- Derived from R103: what reset leaves, at power-on and when the host asserts it; it drives nothing, and then the engine waits. (The
result words being 0 when nothing is driven is the model's choice, log entry 2.) -/
def Obligations.ResetSetsEveryStateElement : Prop :=
  (State.reset.gateValid = false ∧ State.reset.gateLast = 0#64 ∧ State.reset.faulted = false
    ∧ State.reset.fcause = 0#4 ∧ State.reset.out = ⟨none, Vector.replicate 16 0#16, [], []⟩)
  ∧ step State.reset = .next State.reset
  ∧ ∀ (s : State) (rest : List HostAction), s.pending = .reset :: rest →
    step s = .next { s with
      gateValid := false, gateLast := 0#64, faulted := false, fcause := 0#4, pending := rest,
      out := ⟨none, Vector.replicate 16 0#16, [], []⟩ }

/-- Derived from R104 (and R47, for words that are no command): a reset asserted during a command, whatever the command's
word, takes effect before it or after it, and nothing in between. "The command" is the step of the same transaction sent
plainly. Which of the two orders it is is a free value (log entry 6), and nothing is said of it. -/
def Obligations.ResetDuringCommandIsBeforeOrAfter : Prop :=
  ∀ (s : State) (tx : Transaction) (rest : List HostAction),
    s.pending = .commandUnderReset tx :: rest → tx.data.length = blockLen tx.cmd →
    ∃ t u, step s = .next t
      ∧ ((step { s with
            pending := .command tx :: rest, draws := s.draws + 1,
            gateValid := false, gateLast := 0#64, faulted := false, fcause := 0#4 } = .next u ∧ t = u)
        ∨ (step { s with pending := .command tx :: rest, draws := s.draws + 1 } = .next u
          ∧ t = { u with gateValid := false, gateLast := 0#64, faulted := false, fcause := 0#4 }))

/-- Derived from R33, R102 and R103: with no command the engine waits, keeps its state and drives nothing (log entry 3). That
the result words are 0 while nothing is driven is the model's choice (log entry 2). -/
def Obligations.IdleEngineWaits : Prop :=
  ∀ s : State, s.pending = [] →
    step s = .next { s with out := ⟨none, Vector.replicate 16 0#16, [], []⟩ }

/-- Derived from R48, R98 and U13: a step stops only for a host that does not deliver exactly LEN bytes, and then always
(log entry 5). Everything else completes (R110). -/
def Obligations.StepStopsOnlyForBrokenDelivery : Prop :=
  ∀ s : State,
    (step s = .refused .blockLength ↔ ∃ a rest, s.pending = a :: rest ∧ a.delivered = false)
    ∧ ((∀ a rest, s.pending = a :: rest → a.delivered = true) → ∃ t, step s = .next t)

/-- Derived from R35, R98 and R110: a host that keeps its duty has every pending action completed, one a step. -/
def Obligations.ConformingHostIsServedToTheEnd : Prop :=
  ∀ s : State, s.hostDelivers → ∃ t, run s.pending.length s = .next t ∧ t.pending = []

/-! ## The checksum engine -/

/-- R59: the eight conditional shift-and-XOR steps, written out. -/
def Obligations.UpdateFoldsOneByte : Prop :=
  ∀ acc b : Byte,
    let f : Byte → Byte := fun a => if a.getLsbD 7 then (a <<< 1) ^^^ 0xD5#8 else a <<< 1
    update acc b = f (f (f (f (f (f (f (f (acc ^^^ b))))))))

/-- R61: the fold from accumulator 0, in order. -/
def Obligations.DigestFoldsInOrder : Prop :=
  digest [] = 0x00#8 ∧ ∀ (bytes : List Byte) (b : Byte), digest (bytes ++ [b]) = update (digest bytes) b

/-- Derived from R63 item 5: `update(a, b) = M(a ^ b)` with `M` linear, given by its basis values, and a bijection in each
argument. -/
def Obligations.UpdateIsLinearAndInvertible : Prop :=
  (∀ a b c d : Byte, update (a ^^^ c) (b ^^^ d) = update a b ^^^ update c d)
  ∧ (List.range 8).map (fun i => update 0#8 (1#8 <<< i)) = [0xD5#8, 0x7F#8, 0xFE#8, 0x29#8, 0x52#8, 0xA4#8, 0x9D#8, 0xEF#8]
  ∧ (∀ a : Byte, Function.Bijective (update a)) ∧ (∀ b : Byte, Function.Bijective fun a => update a b)

/-- Derived from R63 items 4 and 5: changing one byte of a sequence changes its digest. -/
def Obligations.DigestSeesOneChangedByte : Prop :=
  ∀ (before after : List Byte) (x y : Byte), x ≠ y → digest (before ++ x :: after) ≠ digest (before ++ y :: after)

/-- Derived from R60 and R49: CRC_UPDATE, outside the fault state, answers RESULT8 = update(ACC, DATA) and changes nothing. -/
def Obligations.CrcUpdateCompletes : Prop :=
  ∀ (acc data : BitVec 8) (s : State), s.block = [] → s.faulted = false →
    exec (.crcUpdate acc data) s = .next { s with
      out := ⟨some ((update acc data).setWidth 32 <<< 8), Vector.replicate 16 0#16, [], []⟩ }

/-- Derived from R62 and R49: CRC_DIGEST of up to 64 bytes answers RESULT8 = the digest of the whole block and changes
nothing. -/
def Obligations.CrcDigestCompletes : Prop :=
  ∀ (len : BitVec 8) (s : State), s.block.length = len.toNat → s.faulted = false → len.toNat ≤ 64 →
    exec (.crcDigest len) s = .next { s with
      out := ⟨some ((digest s.block).setWidth 32 <<< 8), Vector.replicate 16 0#16, [], []⟩ }

/-- Derived from R62 and R88: CRC_DIGEST of more than 64 bytes takes the LEN_OUT_OF_RANGE fault. -/
def Obligations.CrcDigestTooLongFaults : Prop :=
  ∀ (len : BitVec 8) (s : State), s.block.length = len.toNat → s.faulted = false → 64 < len.toNat →
    exec (.crcDigest len) s = .next { s with
      faulted := true, fcause := 3#4,
      out := ⟨some 0x3000000F#32, Vector.replicate 16 0#16, [0x0000000000000034#64], []⟩ }

/-! ## The channel unpacker -/

/-- Derived from 41_unpack.md section 1 ("Rule R65 is equivalent to this closed form", which the spec marks as derived): the
bit-cursor algorithm is the closed form, lane by lane, and so it follows the wiring table. -/
def Obligations.CursorUnpackIsTheClosedForm : Prop :=
  ∀ p : Nat → Byte,
    (∀ i : Fin 16, (unpack p)[i].toNat
      = ((∑ k ∈ Finset.range 22, (p k).toNat <<< (8 * k)) >>> (11 * i.val)) &&& 0x7FF)
    ∧ ∀ x ∈ wiringTable, x.holds p (unpack p)

/-- Derived from 41_unpack.md section 3 (the round-trip law, which the spec marks as derived): unpacking a packed ChannelSet
gives it back, and packing an unpacked payload gives back its 22 bytes. -/
def Obligations.PackAndUnpackAreInverse : Prop :=
  (∀ ch : ChannelSet, unpack (fun k => ((pack ch)[k]?).getD 0#8) = ch)
  ∧ ∀ p : Nat → Byte, pack (unpack p) = (List.range 22).map p

/-- Derived from R64 ("It reads exactly the bytes `p[0]` to `p[21]`; bytes past the first 22 do not affect the result"). -/
def Obligations.UnpackReadsOnlyTwentyTwoBytes : Prop :=
  ∀ p q : Nat → Byte, (∀ k, k < 22 → p k = q k) → unpack p = unpack q

/-- Derived from R67 and R52: UNPACK of 22 to 64 bytes drives the sixteen channels, each zero-extended, and changes
nothing. -/
def Obligations.UnpackCompletes : Prop :=
  ∀ (len : BitVec 8) (s : State), s.block.length = len.toNat → s.faulted = false → 22 ≤ len.toNat → len.toNat ≤ 64 →
    exec (.unpack len) s = .next { s with
      out := ⟨some 0x00000000#32, (unpack fun k => (s.block[k]?).getD 0#8).map (·.setWidth 16), [], []⟩ }

/-- Derived from R67 and R88: UNPACK of a long block takes LEN_OUT_OF_RANGE, of a short one UNPACK_UNDERRUN. -/
def Obligations.UnpackLengthFaults : Prop :=
  ∀ (len : BitVec 8) (s : State), s.block.length = len.toNat → s.faulted = false →
    (64 < len.toNat → exec (.unpack len) s = .next { s with
      faulted := true, fcause := 3#4,
      out := ⟨some 0x3000000F#32, Vector.replicate 16 0#16, [0x0000000000000034#64], []⟩ })
    ∧ (len.toNat < 22 → exec (.unpack len) s = .next { s with
      faulted := true, fcause := 4#4,
      out := ⟨some 0x4000000F#32, Vector.replicate 16 0#16, [0x0000000000000044#64], []⟩ })

/-! ## PROCESS -/

/-- R73: a frame shorter than 4 or longer than 64 bytes is rejected with InvalidLength, whatever its bytes; no other length
is. -/
def Obligations.ProcessRejectsBadLength : Prop :=
  ∀ (len : BitVec 8) (c : BitVec 5) (thr : BitVec 11) (s : State), s.block.length = len.toNat → s.faulted = false →
    (len.toNat < 4 ∨ 64 < len.toNat →
      exec (.process len c thr) s = .next { s with
        out := ⟨some 0x00000001#32, Vector.replicate 16 0#16, [0x0000000000000011#64], []⟩ })
    ∧ (4 ≤ len.toNat ∧ len.toNat ≤ 64 → ∀ t, exec (.process len c thr) s = .next t → t.out.resp ≠ some 0x00000001#32)

/-- R74: a frame of legal length whose type byte is not 0x16 is rejected with InvalidType, whatever its checksum byte. -/
def Obligations.ProcessRejectsBadType : Prop :=
  ∀ (len : BitVec 8) (c : BitVec 5) (thr : BitVec 11) (s : State), s.block.length = len.toNat → s.faulted = false →
    4 ≤ len.toNat → len.toNat ≤ 64 → s.block[2]? ≠ some 0x16#8 →
    exec (.process len c thr) s = .next { s with
      out := ⟨some 0x00000002#32, Vector.replicate 16 0#16, [0x0000000000000021#64], []⟩ }

/-- R75: a frame of legal length and type whose last byte is not the digest of bytes 2 to len-2 is rejected with
ChecksumMismatch; no other frame is. -/
def Obligations.ProcessRejectsBadChecksum : Prop :=
  ∀ (len : BitVec 8) (c : BitVec 5) (thr : BitVec 11) (s : State), s.block.length = len.toNat → s.faulted = false →
    4 ≤ len.toNat → len.toNat ≤ 64 → s.block[2]? = some 0x16#8 →
    (s.block[len.toNat - 1]? ≠ some (digest ((s.block.drop 2).take (len.toNat - 3))) →
      exec (.process len c thr) s = .next { s with
        out := ⟨some 0x00000003#32, Vector.replicate 16 0#16, [0x0000000000000031#64], []⟩ })
    ∧ (s.block[len.toNat - 1]? = some (digest ((s.block.drop 2).take (len.toNat - 3))) →
      ∀ t, exec (.process len c thr) s = .next t → t.out.resp ≠ some 0x00000003#32)

/-- Derived from R76 and R88: a frame that passes the three checks with fewer than 26 bytes takes the UNPACK_UNDERRUN fault. -/
def Obligations.ProcessUnderrunFaults : Prop :=
  ∀ (len : BitVec 8) (c : BitVec 5) (thr : BitVec 11) (s : State), s.block.length = len.toNat → s.faulted = false →
    s.validFrame len.toNat → len.toNat < 26 →
    exec (.process len c thr) s = .next { s with
      faulted := true, fcause := 4#4,
      out := ⟨some 0x4000000F#32, Vector.replicate 16 0#16, [0x0000000000000044#64], []⟩ }

/-- Derived from R78 and R82: with the gate closed an accepted frame answers RESP = 0 and nothing else: no event, no strobe, and the gate does not
move. -/
def Obligations.ProcessSuppressedByClosedGate : Prop :=
  ∀ (len : BitVec 8) (c : BitVec 5) (thr : BitVec 11) (s : State), s.block.length = len.toNat → s.faulted = false →
    s.validFrame len.toNat → 26 ≤ len.toNat → s.gateValid = true → s.nowSec.toInt - s.gateLast.toInt < 1 →
    exec (.process len c thr) s = .next { s with
      out := ⟨some 0x00000000#32, Vector.replicate 16 0#16, [], []⟩ }

/-- R79 (with the words of R86): with the gate open an accepted frame with CHAN_IDX outside 1 to 16 is rejected, the event
carries CHAN_IDX, and the gate does not move; with the gate closed the same index goes unreported. -/
def Obligations.ProcessGuardsChannelIndex : Prop :=
  ∀ (len : BitVec 8) (c : BitVec 5) (thr : BitVec 11) (s : State), s.block.length = len.toNat → s.faulted = false →
    s.validFrame len.toNat → 26 ≤ len.toNat → c.toNat < 1 ∨ 16 < c.toNat →
    (s.gateIsOpen → exec (.process len c thr) s = .next { s with
      out := ⟨some 0x00000004#32, Vector.replicate 16 0#16, [0x41#64 ||| (c.setWidth 64 <<< 16)], []⟩ })
    ∧ (¬s.gateIsOpen → exec (.process len c thr) s = .next { s with
      out := ⟨some 0x00000000#32, Vector.replicate 16 0#16, [], []⟩ })

/-- R81 (with R77, R78, R80 and the words of R72): with the gate open an accepted frame with a legal CHAN_IDX is decided:
DECODE, DECISION, one strobe, the gate takes `NOW_SEC`, and the response. -/
def Obligations.ProcessEmitsDecision : Prop :=
  ∀ (len : BitVec 8) (c : BitVec 5) (thr : BitVec 11) (s : State) (v : Channel),
    s.block.length = len.toNat → s.faulted = false → s.validFrame len.toNat → 26 ≤ len.toNat → s.gateIsOpen →
    1 ≤ c.toNat → c.toNat ≤ 16 → (unpack fun k => s.inByte (3 + k))[c.toNat - 1]? = some v →
    let act : Bool := decide (thr.toNat < v.toNat)
    let bit : BitVec 1 := BitVec.ofBool act
    exec (.process len c thr) s = .next { s with
      gateValid := true, gateLast := s.nowSec,
      out := ⟨some ((v.setWidth 32 <<< 16) ||| (bit.setWidth 32 <<< 5) ||| 0x10#32), Vector.replicate 16 0#16,
        [2#64 ||| (c.setWidth 64 <<< 16) ||| (v.setWidth 64 <<< 21),
         3#64 ||| (bit.setWidth 64 <<< 8) ||| (c.setWidth 64 <<< 16) ||| (v.setWidth 64 <<< 21)
           ||| (thr.setWidth 64 <<< 32)],
        [act]⟩ }

/-- Derived from R80, at the ends of the threshold's range (the spec marks the second as derived): THRESHOLD = 2047 never activates, and THRESHOLD = 0 activates exactly when the
decided channel's value is at least 1. -/
def Obligations.ThresholdIsStrictAtItsEnds : Prop :=
  (∀ (len : BitVec 8) (c : BitVec 5) (s t : State), exec (.process len c 2047#11) s = .next t → true ∉ t.out.strobes)
  ∧ (∀ (len : BitVec 8) (c : BitVec 5) (s t : State) (act : Bool), exec (.process len c 0#11) s = .next t →
      t.out.strobes = [act] →
      (act = true ↔ ∀ v ∈ (unpack fun k => s.inByte (3 + k))[c.toNat - 1]?, 1 ≤ v.toNat))

/-- R71: bytes 0 and 1 of a frame change nothing of what PROCESS does. -/
def Obligations.ProcessIgnoresSyncAndLengthBytes : Prop :=
  ∀ (len : BitVec 8) (c : BitVec 5) (thr : BitVec 11) (s t : State) (a b a' b' : Byte) (tail : List Byte),
    s.block = a :: b :: tail → exec (.process len c thr) s = .next t →
    exec (.process len c thr) { s with block := a' :: b' :: tail } = .next { t with block := a' :: b' :: tail }

/-- Derived from R103 and R78 (70_reset_and_hazards.md section 1, which the spec marks as derived): the first PROCESS after a
reset that passes validation with a legal CHAN_IDX decides, whatever `NOW_SEC` is. Any commands may stand between: all that is
asked of them is that none has decided yet and none has faulted. The first clause is over a reset that the host asserts; the
second is over any state whose gate is never evaluated and that has no fault, as after power-on or any other reset. -/
def Obligations.FirstDecisionAfterResetIsNotLimited : Prop :=
  ∀ (s u : State) (between : List Transaction) (tx : Transaction) (rest : List HostAction)
    (len : BitVec 8) (c : BitVec 5) (thr : BitVec 11),
    decode tx.cmd = .instr (.process len c thr) → tx.data.length = len.toNat →
    State.validFrame { s with block := tx.data } len.toNat → 26 ≤ len.toNat → 1 ≤ c.toNat → c.toNat ≤ 16 →
    (s.pending = .reset :: (between.map .command ++ .command tx :: rest) →
      run (between.length + 1) s = .next u → emissionTimes (between.length + 1) s = [] → u.faulted = false →
      ∃ t act, run (between.length + 2) s = .next t ∧ t.out.strobes = [act] ∧ t.gateValid = true ∧ t.gateLast = tx.now
        ∧ t.pending = rest)
    ∧ (s.gateValid = false → s.faulted = false → s.pending = between.map .command ++ .command tx :: rest →
      run between.length s = .next u → emissionTimes between.length s = [] → u.faulted = false →
      ∃ t act, run (between.length + 1) s = .next t ∧ t.out.strobes = [act] ∧ t.gateValid = true ∧ t.gateLast = tx.now
        ∧ t.pending = rest)

/-! ## Frames -/

/-- Derived from R60, R62, R67, R17 and R26 (and R88, R89 for the fault state): CRC_UPDATE, CRC_DIGEST and UNPACK write
neither the gate nor any byte of the data block, whatever they answer; out of the fault state, with a legal LEN, they write
no state element at all. -/
def Obligations.FrameOfChecksumAndUnpack : Prop :=
  ∀ (i : Instr) (s t : State),
    ((∃ acc data, i = .crcUpdate acc data) ∨ (∃ len, i = .crcDigest len) ∨ (∃ len, i = .unpack len)) →
    exec i s = .next t →
    t.gateValid = s.gateValid ∧ t.gateLast = s.gateLast ∧ t.nowSec = s.nowSec ∧ (∀ k, t.inByte k = s.inByte k)
    ∧ t.block = s.block ∧ t.pending = s.pending ∧ t.draws = s.draws
    ∧ (s.faulted = true ∨ i.legal = true → t.faulted = s.faulted ∧ t.fcause = s.fcause)

/-- Derived from R72, R81, R84, R17 and R26: PROCESS writes no byte of the data block; it writes the gate only with a strobe
(a decision), and FAULTED and FCAUSE only with a FAULT event. -/
def Obligations.FrameOfProcess : Prop :=
  ∀ (len : BitVec 8) (c : BitVec 5) (thr : BitVec 11) (s t : State), exec (.process len c thr) s = .next t →
    t.nowSec = s.nowSec ∧ (∀ k, t.inByte k = s.inByte k) ∧ t.block = s.block ∧ t.pending = s.pending ∧ t.draws = s.draws
    ∧ (t.gateValid = s.gateValid ∧ t.gateLast = s.gateLast ∨ (∃ act, t.out.strobes = [act]))
    ∧ (t.faulted = s.faulted ∧ t.fcause = s.fcause ∨ t.out.events = [0x0000000000000044#64])

/-! ## Rules of the whole machine -/

/-- Derived from R17 to R21, R49 to R53, U10: the invariant holds at reset. -/
def Obligations.InvariantHoldsAtReset : Prop := State.reset.Inv

/-- Derived from R17 to R21, R49 to R53, R96, R97, U10: every step keeps the fault latch legal (cause 0, or 1 to 4 with
FAULTED), the timestamp at its reset value while never evaluated, and every output word well formed. -/
def Obligations.StepKeepsInvariant : Prop := ∀ s t : State, s.Inv → step s = .next t → t.Inv

/-- Derived from R18, R19, R78, R81 and D27: a command's step either keeps the gate and drives no strobe, or is an emission of
PROCESS out of the fault state: it drives exactly one strobe, its own `NOW_SEC` is at least one second past a valid timestamp,
and the gate stores that `NOW_SEC`. -/
def Obligations.GateIsWrittenOnlyByEmission : Prop :=
  ∀ (s t : State) (tx : Transaction) (rest : List HostAction), s.pending = .command tx :: rest → step s = .next t →
    (t.gateValid = s.gateValid ∧ t.gateLast = s.gateLast ∧ t.out.strobes = [])
    ∨ (t.gateValid = true ∧ t.gateLast = tx.now ∧ tx.cmd.extractLsb' 0 4 = 4#4 ∧ s.faulted = false
        ∧ (s.gateValid = true → s.gateLast.toInt + 1 ≤ tx.now.toInt) ∧ ∃ act, t.out.strobes = [act])

/-- Derived from R96, R97, R54 and R86: what a command out of the fault state drives. A decision drives two events, DECODE
then DECISION, and one strobe of the response's ACTIVATE; every other ending drives no strobe and at most one event, a REJECT
with the response's STATUS, or a FAULT with its FCAUSE. -/
def Obligations.OutputsFollowTheEnding : Prop :=
  ∀ (i : Instr) (s t : State), s.faulted = false → exec i s = .next t →
    ∃ w, t.out.resp = some w ∧
      ((respDecided w = 1#1 ∧ respStatus w = 0#4 ∧ t.out.strobes = [decide (respActivate w = 1#1)]
          ∧ ∃ d e, t.out.events = [d, e] ∧ eventKind d = 2#4 ∧ eventKind e = 3#4
            ∧ eventValue d = respChval w ∧ eventValue e = respChval w ∧ eventActivate e = respActivate w)
      ∨ (respDecided w = 0#1 ∧ t.out.strobes = []
          ∧ (respStatus w = 0#4 ∧ t.out.events = []
            ∨ (1 ≤ (respStatus w).toNat ∧ (respStatus w).toNat ≤ 4
                ∧ ∃ e, t.out.events = [e] ∧ eventKind e = 1#4 ∧ eventCode e = respStatus w)
            ∨ (respStatus w = 0xF#4 ∧ ∃ e, t.out.events = [e] ∧ eventKind e = 4#4 ∧ eventCode e = respFcause w))))

/-- Derived from R95: of the four commands only PROCESS reads `NOW_SEC`. -/
def Obligations.OnlyProcessReadsTheClock : Prop :=
  ∀ (i : Instr) (s t : State) (now : Time),
    ((∃ acc data, i = .crcUpdate acc data) ∨ (∃ len, i = .crcDigest len) ∨ (∃ len, i = .unpack len)) →
    exec i s = .next t → exec i { s with nowSec := now } = .next { t with nowSec := now }

/-- Derived from R17, R23, R25, R27 and R83: what a command answers, and the state it leaves, depend on the four persistent
elements and the command alone, not on any earlier reply or data block. -/
def Obligations.NothingElsePersists : Prop :=
  ∀ (s s' t : State) (tx : Transaction) (rest rest' : List HostAction),
    s.pending = .command tx :: rest → s'.pending = .command tx :: rest' →
    s.gateValid = s'.gateValid → s.gateLast = s'.gateLast → s.faulted = s'.faulted → s.fcause = s'.fcause →
    step s = .next t →
    ∃ t', step s' = .next t' ∧ t'.out = t.out ∧ t'.gateValid = t.gateValid ∧ t'.gateLast = t.gateLast
      ∧ t'.faulted = t.faulted ∧ t'.fcause = t.fcause

/-- Derived from R78, R81 and R107 (the rate limit, for every clock): over any run of commands, however the clock moves, each
decision's `NOW_SEC` is at least one second past the one before, and the first is one second past a valid timestamp. -/
def Obligations.DecisionsAreOneSecondApart : Prop :=
  ∀ (k : Nat) (s : State), s.noResetPending →
    (emissionTimes k s).Pairwise (fun a b => a + 1 ≤ b)
    ∧ (s.gateValid = true → ∀ a ∈ emissionTimes k s, s.gateLast.toInt + 1 ≤ a)

/-- Derived from R87, R76 and C6: a legal command from a host that keeps every contract never faults; for PROCESS the contract
includes a payload of 22 bytes. -/
def Obligations.ConformingCommandNeverFaults : Prop :=
  ∀ (i : Instr) (s t : State), s.faulted = false → i.legal = true → exec i s = .next t →
    (∀ len c thr, i = .process len c thr → 26 ≤ len.toNat) → t.faulted = false ∧ t.fcause = s.fcause
end

