-- ==== Sys2Proof/Laws/Bits.lean ====
section
/-! SUPPORT. Reading a field of a word that is built as an OR of shifted fields: the one fact behind every layout of the
spec (R43 to R46, R49, R53). -/

namespace Sys2Proof.Laws

variable {W n : Nat}

/-- A field read from an OR is the OR of the fields. -/
theorem extract_or (a b : BitVec W) (j m : Nat) :
    (a ||| b).extractLsb' j m = a.extractLsb' j m ||| b.extractLsb' j m := by ext i h; simp

/-- A field read where it was placed is itself. -/
theorem extract_field_same (v : BitVec n) (k : Nat) (h : k + n ≤ W) :
    (v.setWidth W <<< k).extractLsb' k n = v := by
  ext i hi
  simp only [BitVec.getElem_extractLsb', BitVec.getLsbD_shiftLeft, BitVec.getLsbD_setWidth, Nat.add_sub_cancel_left,
    show k + i < W by omega, show ¬(k + i < k) by omega, show i < W by omega, decide_true, decide_false, Bool.not_false,
    Bool.true_and, BitVec.getLsbD_eq_getElem hi]

/-- A field read below where another was placed is 0. -/
theorem extract_field_below (x : BitVec W) (j k m : Nat) (h : j + m ≤ k) : (x <<< k).extractLsb' j m = 0#m := by
  ext i hi
  simp [show j + i < k by omega]

/-- A field read above where another ends is 0. -/
theorem extract_field_above (v : BitVec n) (j k m : Nat) (h : k + n ≤ j) :
    (v.setWidth W <<< k).extractLsb' j m = 0#m := by
  ext i hi
  simp only [BitVec.getElem_extractLsb', BitVec.getLsbD_shiftLeft, BitVec.getLsbD_setWidth, BitVec.getElem_zero,
    BitVec.getLsbD_of_ge v (j + i - k) (by omega), Bool.and_false]

/-- The same where nothing was shifted. -/
theorem extract_low_above (v : BitVec n) (j m : Nat) (h : n ≤ j) : (v.setWidth W).extractLsb' j m = 0#m := by
  simpa using extract_field_above (W := W) v j 0 m (by omega)

theorem extract_low_same (v : BitVec n) (h : n ≤ W) : (v.setWidth W).extractLsb' 0 n = v := by
  simpa using extract_field_same (W := W) v 0 (by omega)

end Sys2Proof.Laws
end

