-- ==== Sys2Proof/Laws/State.lean ====
section
/-! SUPPORT. One lemma per field per update of State, all by rfl: later proofs never unfold a record update. -/

namespace Sys2Proof.Machine

variable (s : State)

@[simp] theorem respond_gateValid (w : Word) : (s.respond w).gateValid = s.gateValid := rfl
@[simp] theorem respond_gateLast (w : Word) : (s.respond w).gateLast = s.gateLast := rfl
@[simp] theorem respond_faulted (w : Word) : (s.respond w).faulted = s.faulted := rfl
@[simp] theorem respond_fcause (w : Word) : (s.respond w).fcause = s.fcause := rfl
@[simp] theorem respond_block (w : Word) : (s.respond w).block = s.block := rfl
@[simp] theorem respond_nowSec (w : Word) : (s.respond w).nowSec = s.nowSec := rfl
@[simp] theorem respond_out_resp (w : Word) : (s.respond w).out.resp = some w := rfl
@[simp] theorem respond_out_resCh (w : Word) : (s.respond w).out.resCh = s.out.resCh := rfl
@[simp] theorem respond_out_events (w : Word) : (s.respond w).out.events = s.out.events := rfl
@[simp] theorem respond_out_strobes (w : Word) : (s.respond w).out.strobes = s.out.strobes := rfl
@[simp] theorem respond_pending (w : Word) : (s.respond w).pending = s.pending := rfl
@[simp] theorem respond_draws (w : Word) : (s.respond w).draws = s.draws := rfl

@[simp] theorem emit_gateValid (e : EventWord) : (s.emit e).gateValid = s.gateValid := rfl
@[simp] theorem emit_gateLast (e : EventWord) : (s.emit e).gateLast = s.gateLast := rfl
@[simp] theorem emit_faulted (e : EventWord) : (s.emit e).faulted = s.faulted := rfl
@[simp] theorem emit_fcause (e : EventWord) : (s.emit e).fcause = s.fcause := rfl
@[simp] theorem emit_block (e : EventWord) : (s.emit e).block = s.block := rfl
@[simp] theorem emit_nowSec (e : EventWord) : (s.emit e).nowSec = s.nowSec := rfl
@[simp] theorem emit_out_resp (e : EventWord) : (s.emit e).out.resp = s.out.resp := rfl
@[simp] theorem emit_out_resCh (e : EventWord) : (s.emit e).out.resCh = s.out.resCh := rfl
@[simp] theorem emit_out_events (e : EventWord) : (s.emit e).out.events = s.out.events ++ [e] := rfl
@[simp] theorem emit_out_strobes (e : EventWord) : (s.emit e).out.strobes = s.out.strobes := rfl
@[simp] theorem emit_pending (e : EventWord) : (s.emit e).pending = s.pending := rfl
@[simp] theorem emit_draws (e : EventWord) : (s.emit e).draws = s.draws := rfl

@[simp] theorem actuate_gateValid (b : Bool) : (s.actuate b).gateValid = s.gateValid := rfl
@[simp] theorem actuate_gateLast (b : Bool) : (s.actuate b).gateLast = s.gateLast := rfl
@[simp] theorem actuate_faulted (b : Bool) : (s.actuate b).faulted = s.faulted := rfl
@[simp] theorem actuate_fcause (b : Bool) : (s.actuate b).fcause = s.fcause := rfl
@[simp] theorem actuate_block (b : Bool) : (s.actuate b).block = s.block := rfl
@[simp] theorem actuate_nowSec (b : Bool) : (s.actuate b).nowSec = s.nowSec := rfl
@[simp] theorem actuate_out_resp (b : Bool) : (s.actuate b).out.resp = s.out.resp := rfl
@[simp] theorem actuate_out_resCh (b : Bool) : (s.actuate b).out.resCh = s.out.resCh := rfl
@[simp] theorem actuate_out_events (b : Bool) : (s.actuate b).out.events = s.out.events := rfl
@[simp] theorem actuate_out_strobes (b : Bool) : (s.actuate b).out.strobes = s.out.strobes ++ [b] := rfl
@[simp] theorem actuate_pending (b : Bool) : (s.actuate b).pending = s.pending := rfl
@[simp] theorem actuate_draws (b : Bool) : (s.actuate b).draws = s.draws := rfl

@[simp] theorem driveChannels_gateValid (ch : ChannelSet) : (s.driveChannels ch).gateValid = s.gateValid := rfl
@[simp] theorem driveChannels_gateLast (ch : ChannelSet) : (s.driveChannels ch).gateLast = s.gateLast := rfl
@[simp] theorem driveChannels_faulted (ch : ChannelSet) : (s.driveChannels ch).faulted = s.faulted := rfl
@[simp] theorem driveChannels_fcause (ch : ChannelSet) : (s.driveChannels ch).fcause = s.fcause := rfl
@[simp] theorem driveChannels_block (ch : ChannelSet) : (s.driveChannels ch).block = s.block := rfl
@[simp] theorem driveChannels_nowSec (ch : ChannelSet) : (s.driveChannels ch).nowSec = s.nowSec := rfl
@[simp] theorem driveChannels_out_resp (ch : ChannelSet) : (s.driveChannels ch).out.resp = s.out.resp := rfl
@[simp] theorem driveChannels_out_resCh (ch : ChannelSet) : (s.driveChannels ch).out.resCh = ch.map (·.setWidth 16) := rfl
@[simp] theorem driveChannels_out_events (ch : ChannelSet) : (s.driveChannels ch).out.events = s.out.events := rfl
@[simp] theorem driveChannels_out_strobes (ch : ChannelSet) : (s.driveChannels ch).out.strobes = s.out.strobes := rfl
@[simp] theorem driveChannels_pending (ch : ChannelSet) : (s.driveChannels ch).pending = s.pending := rfl
@[simp] theorem driveChannels_draws (ch : ChannelSet) : (s.driveChannels ch).draws = s.draws := rfl

@[simp] theorem quiet_gateValid : (s.quiet).gateValid = s.gateValid := rfl
@[simp] theorem quiet_gateLast : (s.quiet).gateLast = s.gateLast := rfl
@[simp] theorem quiet_faulted : (s.quiet).faulted = s.faulted := rfl
@[simp] theorem quiet_fcause : (s.quiet).fcause = s.fcause := rfl
@[simp] theorem quiet_block : (s.quiet).block = s.block := rfl
@[simp] theorem quiet_nowSec : (s.quiet).nowSec = s.nowSec := rfl
@[simp] theorem quiet_out : (s.quiet).out = Reply.idle := rfl
@[simp] theorem quiet_pending : (s.quiet).pending = s.pending := rfl
@[simp] theorem quiet_draws : (s.quiet).draws = s.draws := rfl

@[simp] theorem resetEngine_gateValid : (s.resetEngine).gateValid = false := rfl
@[simp] theorem resetEngine_gateLast : (s.resetEngine).gateLast = 0#64 := rfl
@[simp] theorem resetEngine_faulted : (s.resetEngine).faulted = false := rfl
@[simp] theorem resetEngine_fcause : (s.resetEngine).fcause = 0#4 := rfl
@[simp] theorem resetEngine_block : (s.resetEngine).block = s.block := rfl
@[simp] theorem resetEngine_nowSec : (s.resetEngine).nowSec = s.nowSec := rfl
@[simp] theorem resetEngine_out : (s.resetEngine).out = s.out := rfl
@[simp] theorem resetEngine_pending : (s.resetEngine).pending = s.pending := rfl
@[simp] theorem resetEngine_draws : (s.resetEngine).draws = s.draws := rfl

@[simp] theorem draw_gateValid : (s.draw).gateValid = s.gateValid := rfl
@[simp] theorem draw_gateLast : (s.draw).gateLast = s.gateLast := rfl
@[simp] theorem draw_faulted : (s.draw).faulted = s.faulted := rfl
@[simp] theorem draw_fcause : (s.draw).fcause = s.fcause := rfl
@[simp] theorem draw_block : (s.draw).block = s.block := rfl
@[simp] theorem draw_nowSec : (s.draw).nowSec = s.nowSec := rfl
@[simp] theorem draw_out : (s.draw).out = s.out := rfl
@[simp] theorem draw_pending : (s.draw).pending = s.pending := rfl
@[simp] theorem draw_draws : (s.draw).draws = s.draws + 1 := rfl

@[simp] theorem accept_gateValid (tx : Transaction) (rest : List HostAction) : (s.accept tx rest).gateValid = s.gateValid := rfl
@[simp] theorem accept_gateLast (tx : Transaction) (rest : List HostAction) : (s.accept tx rest).gateLast = s.gateLast := rfl
@[simp] theorem accept_faulted (tx : Transaction) (rest : List HostAction) : (s.accept tx rest).faulted = s.faulted := rfl
@[simp] theorem accept_fcause (tx : Transaction) (rest : List HostAction) : (s.accept tx rest).fcause = s.fcause := rfl
@[simp] theorem accept_block (tx : Transaction) (rest : List HostAction) : (s.accept tx rest).block = tx.data := rfl
@[simp] theorem accept_nowSec (tx : Transaction) (rest : List HostAction) : (s.accept tx rest).nowSec = tx.now := rfl
@[simp] theorem accept_out (tx : Transaction) (rest : List HostAction) : (s.accept tx rest).out = s.out := rfl
@[simp] theorem accept_pending (tx : Transaction) (rest : List HostAction) : (s.accept tx rest).pending = rest := rfl
@[simp] theorem accept_draws (tx : Transaction) (rest : List HostAction) : (s.accept tx rest).draws = s.draws := rfl

@[simp] theorem reject_gateValid (r : RejectReason) : (s.reject r).gateValid = s.gateValid := rfl
@[simp] theorem reject_gateLast (r : RejectReason) : (s.reject r).gateLast = s.gateLast := rfl
@[simp] theorem reject_faulted (r : RejectReason) : (s.reject r).faulted = s.faulted := rfl
@[simp] theorem reject_fcause (r : RejectReason) : (s.reject r).fcause = s.fcause := rfl
@[simp] theorem reject_block (r : RejectReason) : (s.reject r).block = s.block := rfl
@[simp] theorem reject_nowSec (r : RejectReason) : (s.reject r).nowSec = s.nowSec := rfl
@[simp] theorem reject_out_resp (r : RejectReason) : (s.reject r).out.resp = some (rejectResponse r) := rfl
@[simp] theorem reject_out_resCh (r : RejectReason) : (s.reject r).out.resCh = s.out.resCh := rfl
@[simp] theorem reject_out_events (r : RejectReason) : (s.reject r).out.events = s.out.events ++ [rejectEvent r] := rfl
@[simp] theorem reject_out_strobes (r : RejectReason) : (s.reject r).out.strobes = s.out.strobes := rfl
@[simp] theorem reject_pending (r : RejectReason) : (s.reject r).pending = s.pending := rfl
@[simp] theorem reject_draws (r : RejectReason) : (s.reject r).draws = s.draws := rfl

@[simp] theorem raiseFault_gateValid (c : FaultCause) : (s.raiseFault c).gateValid = s.gateValid := rfl
@[simp] theorem raiseFault_gateLast (c : FaultCause) : (s.raiseFault c).gateLast = s.gateLast := rfl
@[simp] theorem raiseFault_faulted (c : FaultCause) : (s.raiseFault c).faulted = true := rfl
@[simp] theorem raiseFault_fcause (c : FaultCause) : (s.raiseFault c).fcause = causeCode c := rfl
@[simp] theorem raiseFault_block (c : FaultCause) : (s.raiseFault c).block = s.block := rfl
@[simp] theorem raiseFault_nowSec (c : FaultCause) : (s.raiseFault c).nowSec = s.nowSec := rfl
@[simp] theorem raiseFault_out_resp (c : FaultCause) : (s.raiseFault c).out.resp = some (faultResponse (causeCode c)) := rfl
@[simp] theorem raiseFault_out_resCh (c : FaultCause) : (s.raiseFault c).out.resCh = s.out.resCh := rfl
@[simp] theorem raiseFault_out_events (c : FaultCause) : (s.raiseFault c).out.events = s.out.events ++ [faultEvent c] := rfl
@[simp] theorem raiseFault_out_strobes (c : FaultCause) : (s.raiseFault c).out.strobes = s.out.strobes := rfl
@[simp] theorem raiseFault_pending (c : FaultCause) : (s.raiseFault c).pending = s.pending := rfl
@[simp] theorem raiseFault_draws (c : FaultCause) : (s.raiseFault c).draws = s.draws := rfl

@[simp] theorem nullEffect_gateValid : (s.nullEffect).gateValid = s.gateValid := rfl
@[simp] theorem nullEffect_gateLast : (s.nullEffect).gateLast = s.gateLast := rfl
@[simp] theorem nullEffect_faulted : (s.nullEffect).faulted = s.faulted := rfl
@[simp] theorem nullEffect_fcause : (s.nullEffect).fcause = s.fcause := rfl
@[simp] theorem nullEffect_block : (s.nullEffect).block = s.block := rfl
@[simp] theorem nullEffect_nowSec : (s.nullEffect).nowSec = s.nowSec := rfl
@[simp] theorem nullEffect_out_resp : (s.nullEffect).out.resp = some (faultResponse s.fcause) := rfl
@[simp] theorem nullEffect_out_resCh : (s.nullEffect).out.resCh = s.out.resCh := rfl
@[simp] theorem nullEffect_out_events : (s.nullEffect).out.events = s.out.events := rfl
@[simp] theorem nullEffect_out_strobes : (s.nullEffect).out.strobes = s.out.strobes := rfl
@[simp] theorem nullEffect_pending : (s.nullEffect).pending = s.pending := rfl
@[simp] theorem nullEffect_draws : (s.nullEffect).draws = s.draws := rfl

@[simp] theorem emitDecision_gateValid (c : BitVec 5) (thr : BitVec 11) (v : Channel) (now : Time) : (s.emitDecision c thr v now).gateValid = true := rfl
@[simp] theorem emitDecision_gateLast (c : BitVec 5) (thr : BitVec 11) (v : Channel) (now : Time) : (s.emitDecision c thr v now).gateLast = now := rfl
@[simp] theorem emitDecision_faulted (c : BitVec 5) (thr : BitVec 11) (v : Channel) (now : Time) : (s.emitDecision c thr v now).faulted = s.faulted := rfl
@[simp] theorem emitDecision_fcause (c : BitVec 5) (thr : BitVec 11) (v : Channel) (now : Time) : (s.emitDecision c thr v now).fcause = s.fcause := rfl
@[simp] theorem emitDecision_block (c : BitVec 5) (thr : BitVec 11) (v : Channel) (now : Time) : (s.emitDecision c thr v now).block = s.block := rfl
@[simp] theorem emitDecision_nowSec (c : BitVec 5) (thr : BitVec 11) (v : Channel) (now : Time) : (s.emitDecision c thr v now).nowSec = s.nowSec := rfl
@[simp] theorem emitDecision_out_resp (c : BitVec 5) (thr : BitVec 11) (v : Channel) (now : Time) : (s.emitDecision c thr v now).out.resp = some (decisionResponse v (comparator v thr)) := rfl
@[simp] theorem emitDecision_out_resCh (c : BitVec 5) (thr : BitVec 11) (v : Channel) (now : Time) : (s.emitDecision c thr v now).out.resCh = s.out.resCh := rfl
@[simp] theorem emitDecision_out_events (c : BitVec 5) (thr : BitVec 11) (v : Channel) (now : Time) : (s.emitDecision c thr v now).out.events = s.out.events ++ [decodeEvent c v] ++ [decisionEvent (comparator v thr) c v thr] := rfl
@[simp] theorem emitDecision_out_strobes (c : BitVec 5) (thr : BitVec 11) (v : Channel) (now : Time) : (s.emitDecision c thr v now).out.strobes = s.out.strobes ++ [comparator v thr] := rfl
@[simp] theorem emitDecision_pending (c : BitVec 5) (thr : BitVec 11) (v : Channel) (now : Time) : (s.emitDecision c thr v now).pending = s.pending := rfl
@[simp] theorem emitDecision_draws (c : BitVec 5) (thr : BitVec 11) (v : Channel) (now : Time) : (s.emitDecision c thr v now).draws = s.draws := rfl

@[simp] theorem idle_resp : Reply.idle.resp = none := rfl
@[simp] theorem idle_resCh : Reply.idle.resCh = Vector.replicate 16 0#16 := rfl
@[simp] theorem idle_events : Reply.idle.events = [] := rfl
@[simp] theorem idle_strobes : Reply.idle.strobes = [] := rfl

/-- The data block alone decides what is read (R28). -/
@[simp] theorem quiet_inByte : s.quiet.inByte = s.inByte := rfl
@[simp] theorem quiet_inRange : s.quiet.inRange = s.inRange := rfl

/-- A byte inside the block is the byte the host delivered (R28). -/
theorem inByte_of_lt {k : Nat} (h : k < s.block.length) : s.inByte k = s.block[k] := by
  simp [State.inByte, List.getElem?_eq_getElem h]

theorem inRange_length (a b : Nat) : (s.inRange a b).length = b - a := by simp [State.inRange]

/-- Inside the block a range is the slice of the delivered bytes (R11). -/
theorem inRange_eq_slice {a b : Nat} (h : b ≤ s.block.length) : s.inRange a b = (s.block.drop a).take (b - a) := by
  apply List.ext_getElem
  · simp [State.inRange]; omega
  · intro i h1 h2
    have hi : a + i < s.block.length := by simp [State.inRange] at h1; omega
    simp [State.inRange, inByte_of_lt s hi]

/-- CRC_DIGEST digests the whole block (R62). -/
theorem inRange_whole : s.inRange 0 s.block.length = s.block := by simp [inRange_eq_slice s (le_refl _)]

end Sys2Proof.Machine
end

