-- ==== Sys2Proof/Laws/Ops.lean ====
section
/-! SUPPORT. The shared operation `operate`, said once: when it completes, when it refuses, and all it can do. -/

namespace Sys2Proof.Machine

variable {n : Nat} {body : State → State} {s t : State}

/-- A command whose block has its length, outside the fault state, has its own effect (R47 step 4). -/
theorem operate_runs (hlen : s.block.length = n) (hok : s.faulted = false) :
    operate n body s = .next (body s.quiet) := by simp [operate, hlen, hok]

/-- In the fault state it has the null effect (R47 step 1, R89). -/
theorem operate_faulted (hlen : s.block.length = n) (hf : s.faulted = true) :
    operate n body s = .next s.quiet.nullEffect := by simp [operate, hlen, hf]

/-- A block of another length is refused (R98, U13). -/
theorem operate_refuses (hlen : s.block.length ≠ n) : operate n body s = .refused .blockLength := by
  simp [operate, hlen]

/-- All that a command can do when it answers a next state. -/
theorem operate_cases (h : operate n body s = .next t) :
    s.block.length = n ∧ (s.faulted = true ∧ t = s.quiet.nullEffect ∨ s.faulted = false ∧ t = body s.quiet) := by
  unfold operate at h
  split at h
  · cases hf : s.faulted <;> simp_all
  · cases h

/-- A command is refused only for its block's length. -/
theorem operate_refused_cases {r : Refusal} (h : operate n body s = .refused r) :
    s.block.length ≠ n ∧ r = .blockLength := by
  unfold operate at h
  split at h
  · cases h
  · cases h; exact ⟨‹_›, rfl⟩

/-- A command completes exactly when its block has its length. -/
theorem operate_completes : (∃ t, operate n body s = .next t) ↔ s.block.length = n := by
  constructor
  · rintro ⟨t, h⟩; exact (operate_cases h).1
  · intro h
    cases hf : s.faulted
    · exact ⟨_, operate_runs h hf⟩
    · exact ⟨_, operate_faulted h hf⟩

end Sys2Proof.Machine
end

