-- ==== Sys2Proof/Laws/Commands.lean ====
section
/-! SUPPORT. The four commands' bodies, each said once: everything it can do, as a disjunction of named endings. -/

namespace Sys2Proof.Machine

/-- CRC_DIGEST faults on a long block, or responds (R62). -/
theorem digestBlock_cases (len : Nat) (s : State) :
    64 < len ∧ digestBlock len s = s.raiseFault .lenOutOfRange
    ∨ len ≤ 64 ∧ digestBlock len s = s.respond (crcResponse (digest (s.inRange 0 len))) := by
  simp only [digestBlock, Config.frameMax]
  by_cases h : 64 < len
  · exact .inl ⟨h, if_pos h⟩
  · exact .inr ⟨by omega, if_neg h⟩

/-- UNPACK faults on a long or a short block, or drives the channels (R67). -/
theorem unpackBlock_cases (len : Nat) (s : State) :
    64 < len ∧ unpackBlock len s = s.raiseFault .lenOutOfRange
    ∨ len < 22 ∧ unpackBlock len s = s.raiseFault .unpackUnderrun
    ∨ (22 ≤ len ∧ len ≤ 64) ∧ unpackBlock len s = (s.driveChannels (unpack s.inByte)).respond okResponse := by
  simp only [unpackBlock, Config.frameMax, Config.payloadBytes]
  by_cases h : 64 < len
  · exact .inl ⟨h, if_pos h⟩
  · rw [if_neg h]
    by_cases h' : len < 22
    · exact .inr (.inl ⟨h', if_pos h'⟩)
    · exact .inr (.inr ⟨by omega, if_neg h'⟩)

/-- The validation steps, by the reason they answer (R73 to R75). -/
theorem frameCheck_cases (len : Nat) (s : State) :
    (len < 4 ∨ 64 < len) ∧ frameCheck len s = some .invalidLength
    ∨ (4 ≤ len ∧ len ≤ 64) ∧ s.inByte 2 ≠ 0x16#8 ∧ frameCheck len s = some .invalidType
    ∨ (4 ≤ len ∧ len ≤ 64) ∧ s.inByte 2 = 0x16#8 ∧ digest (s.inRange 2 (len - 1)) ≠ s.inByte (len - 1)
        ∧ frameCheck len s = some .checksumMismatch
    ∨ s.validFrame len ∧ frameCheck len s = none := by
  simp only [frameCheck, Config.frameMin, Config.frameMax, Config.typeChannelsPacked]
  by_cases h : len < 4 ∨ 64 < len
  · exact .inl ⟨h, if_pos h⟩
  have hr : 4 ≤ len ∧ len ≤ 64 := by omega
  rw [if_neg h]
  by_cases ht : s.inByte 2 = 0x16#8
  · rw [if_neg (not_not.mpr ht)]
    by_cases hc : digest (s.inRange 2 (len - 1)) = s.inByte (len - 1)
    · exact .inr (.inr (.inr ⟨⟨hr.1, hr.2, ht, hc⟩, if_neg (not_not.mpr hc)⟩))
    · exact .inr (.inr (.inl ⟨hr, ht, hc, if_pos hc⟩))
  · exact .inr (.inl ⟨hr, ht, if_pos ht⟩)

/-- The gate test is the condition of R78. -/
theorem gateOpen_iff (s : State) : gateOpen s s.nowSec = true ↔ s.gateIsOpen := by
  simp only [gateOpen, Bool.or_eq_true, Bool.not_eq_true', decide_eq_true_eq]
  exact Iff.rfl

/-- A channel index in range selects its channel (R80). -/
theorem channelAt_of_legal (ch : ChannelSet) (c : BitVec 5) (h : 1 ≤ c.toNat ∧ c.toNat ≤ 16) :
    channelAt ch c = some (ch[c.toNat - 1]'(by omega)) := by
  have : ¬(c.toNat < 1 ∨ 16 < c.toNat) := by omega
  simp only [channelAt, Config.channels, this, if_false]
  exact Vector.getElem?_eq_getElem (by omega)

/-- A channel index out of range selects none (R79). -/
theorem channelAt_of_illegal (ch : ChannelSet) (c : BitVec 5) (h : c.toNat < 1 ∨ 16 < c.toNat) :
    channelAt ch c = none := by simp only [channelAt, Config.channels, h, if_true]

/-- An accepted frame is suppressed, rejected for its index, or decided (R78 to R82). -/
theorem decideFrame_cases (ch : ChannelSet) (c : BitVec 5) (thr : BitVec 11) (s : State) :
    ¬s.gateIsOpen ∧ decideFrame ch c thr s.nowSec s = s.respond okResponse
    ∨ s.gateIsOpen ∧ (c.toNat < 1 ∨ 16 < c.toNat)
        ∧ decideFrame ch c thr s.nowSec s = s.reject (.configChannelOutOfRange c)
    ∨ s.gateIsOpen ∧ ∃ h : 1 ≤ c.toNat ∧ c.toNat ≤ 16,
        decideFrame ch c thr s.nowSec s = s.emitDecision c thr (ch[c.toNat - 1]'(by omega)) s.nowSec := by
  unfold decideFrame
  by_cases hg : gateOpen s s.nowSec = true
  · have ho := (gateOpen_iff s).mp hg
    rw [if_pos hg]
    by_cases hc : c.toNat < 1 ∨ 16 < c.toNat
    · rw [channelAt_of_illegal ch c hc]; exact .inr (.inl ⟨ho, hc, rfl⟩)
    · rw [channelAt_of_legal ch c (by omega)]; exact .inr (.inr ⟨ho, by omega, rfl⟩)
  · rw [if_neg hg]; exact .inl ⟨fun h => hg ((gateOpen_iff s).mpr h), rfl⟩

/-- PROCESS: a rejection by the validation steps, an underrun fault, or an accepted frame (R72). -/
theorem processFrame_cases (len : Nat) (c : BitVec 5) (thr : BitVec 11) (s : State) :
    (∃ r, frameCheck len s = some r ∧ processFrame len c thr s = s.reject r)
    ∨ s.validFrame len ∧ len < 26 ∧ processFrame len c thr s = s.raiseFault .unpackUnderrun
    ∨ s.validFrame len ∧ 26 ≤ len
        ∧ processFrame len c thr s = decideFrame s.frameChannels c thr s.nowSec s := by
  unfold processFrame
  rcases frameCheck_cases len s with ⟨_, h⟩ | ⟨_, _, h⟩ | ⟨_, _, _, h⟩ | ⟨hv, h⟩
  · rw [h]; exact .inl ⟨_, rfl, rfl⟩
  · rw [h]; exact .inl ⟨_, rfl, rfl⟩
  · rw [h]; exact .inl ⟨_, rfl, rfl⟩
  · rw [h]
    by_cases hl : len < 26
    · exact .inr (.inl ⟨hv, hl, by simp [hl]⟩)
    · exact .inr (.inr ⟨hv, by omega, by simp [hl, State.frameChannels]⟩)

end Sys2Proof.Machine
end

