-- ==== Sys2Proof/Laws/Encoding.lean ====
section
/-! SUPPORT. The fields the decoder reads back from an encoded word, one lemma per field every format has (R41, R48). -/

namespace Sys2Proof

open Sys2Proof.Laws

/-- OP of an encoded word (R42). -/
theorem fieldOp_encode (i : Instr) : fieldOp (encode i) =
    match i with
    | .crcUpdate _ _ => 0x1#4
    | .crcDigest _ => 0x2#4
    | .unpack _ => 0x3#4
    | .process _ _ _ => 0x4#4 := by
  cases i <;> simp (disch := omega) [fieldOp, encode, extract_or, extract_field_below]

/-- RSV0 of an encoded word is 0 (R41). -/
theorem fieldRsv0_encode (i : Instr) : fieldRsv0 (encode i) = 0#4 := by
  cases i <;> simp (disch := omega) [fieldRsv0, encode, extract_or, extract_field_below]

/-- Bits 15:8 of an encoded word: ACC or LEN (R43 to R46). -/
theorem fieldLen_encode (i : Instr) : fieldLen (encode i) =
    match i with
    | .crcUpdate acc _ => acc
    | .crcDigest len => len
    | .unpack len => len
    | .process len _ _ => len := by
  cases i <;> simp (disch := omega) [fieldLen, encode, extract_or, extract_field_below, extract_field_same]

/-- A word passes R47 step 3 only with both reserved fields 0. -/
theorem checkReserved_instr {n : Nat} {w : Word} {rsv : BitVec n} {i j : Instr} (h : checkReserved w rsv i = .instr j) :
    j = i ∧ fieldRsv0 w = 0#4 ∧ rsv = 0#n := by
  unfold checkReserved at h
  split at h
  · cases h
  · cases h; simp_all

/-- All that a decoded word can be (R42, R47). -/
theorem decode_instr_cases {w : Word} {i : Instr} (h : decode w = .instr i) :
    fieldRsv0 w = 0#4 ∧
      (fieldOp w = 0x1#4 ∧ fieldRsv1 w = 0#8 ∧ i = .crcUpdate (fieldAcc w) (fieldData w)
      ∨ fieldOp w = 0x2#4 ∧ fieldRsv2 w = 0#16 ∧ i = .crcDigest (fieldLen w)
      ∨ fieldOp w = 0x3#4 ∧ fieldRsv2 w = 0#16 ∧ i = .unpack (fieldLen w)
      ∨ fieldOp w = 0x4#4 ∧ i = .process (fieldLen w) (fieldChanIdx w) (fieldThreshold w)) := by
  unfold decode at h
  split at h
  · have := checkReserved_instr h; tauto
  split at h
  · have := checkReserved_instr h; tauto
  split at h
  · have := checkReserved_instr h; tauto
  split at h
  · have := checkReserved_instr h; tauto
  · cases h

end Sys2Proof
end

