-- ==== Sys2Proof/Laws/PerInstr.lean ====
section
/-! SUPPORT. Statements about every instruction as syntax, one lemma per constructor. -/

namespace Sys2Proof.Laws.BlockLength

/-- The data block length read off the encoded word is the instruction's own (R43 to R46, R48). -/
def Statement (i : Instr) : Prop := blockLen (encode i) = i.blockLen

theorem crcUpdate (acc data : BitVec 8) : Statement (.crcUpdate acc data) := by
  simp [Statement, blockLen, fieldOp_encode, Instr.blockLen]

theorem crcDigest (len : BitVec 8) : Statement (.crcDigest len) := by
  simp [Statement, blockLen, fieldOp_encode, fieldLen_encode, Instr.blockLen]

theorem unpack (len : BitVec 8) : Statement (.unpack len) := by
  simp [Statement, blockLen, fieldOp_encode, fieldLen_encode, Instr.blockLen]

theorem process (len : BitVec 8) (chanIdx : BitVec 5) (threshold : BitVec 11) :
    Statement (.process len chanIdx threshold) := by
  simp [Statement, blockLen, fieldOp_encode, fieldLen_encode, Instr.blockLen]

end Sys2Proof.Laws.BlockLength
end

