-- ==== Sys2Proof/Laws/Step.lean ====
section
/-! SUPPORT. One step, said once: what each host action does, and all that a command word can do. -/

namespace Sys2Proof.Machine

variable {s t : State} {tx : Transaction} {rest : List HostAction}

theorem step_idle (h : s.pending = []) : step s = .next s.quiet := by simp [step, h]

theorem step_reset (h : s.pending = .reset :: rest) :
    step s = .next { s with pending := rest }.resetEngine.quiet := by simp [step, h]

theorem step_command (h : s.pending = .command tx :: rest) : step s = runWord tx.cmd (s.accept tx rest) := by
  simp [step, h]

theorem step_commandUnderReset (h : s.pending = .commandUnderReset tx :: rest) :
    step s = resetAround (Config.resetFirst s.draws) (runWord tx.cmd) (s.draw.accept tx rest) := by simp [step, h]

/-- What a command word does after the decode checks (R47 steps 2 to 4). -/
def wordEffect (w : Word) : State → State :=
  match decode w with
  | .instr (.crcUpdate acc data) => fun s => s.respond (crcResponse (update acc data))
  | .instr (.crcDigest len) => digestBlock len.toNat
  | .instr (.unpack len) => unpackBlock len.toNat
  | .instr (.process len chanIdx threshold) => processFrame len.toNat chanIdx threshold
  | .rejected why => fun s => s.raiseFault why.cause

/-- A decoded instruction's data block is the one its word calls for (R48). -/
theorem decode_blockLen {w : Word} {i : Instr} (h : decode w = .instr i) : i.blockLen = blockLen w := by
  obtain ⟨-, ⟨ho, -, rfl⟩ | ⟨ho, -, rfl⟩ | ⟨ho, -, rfl⟩ | ⟨ho, rfl⟩⟩ := decode_instr_cases h <;>
    simp [Instr.blockLen, blockLen, ho]

/-- Every command word, decoded or rejected, runs as one `operate` over the block its word calls for. -/
theorem runWord_eq (w : Word) (s : State) : runWord w s = operate (blockLen w) (wordEffect w) s := by
  unfold runWord wordEffect
  cases h : decode w with
  | rejected why => rfl
  | instr i => cases i <;> simp only [← decode_blockLen h] <;> rfl

/-- A command completes exactly when the host delivers the block its word calls for (R48, R98). -/
theorem runWord_completes (w : Word) (s : State) : (∃ t, runWord w s = .next t) ↔ s.block.length = blockLen w := by
  rw [runWord_eq]; exact operate_completes

/-- All that a command word can do when it answers a next state. -/
theorem runWord_cases {w : Word} (h : runWord w s = .next t) :
    s.block.length = blockLen w ∧
      (s.faulted = true ∧ t = s.quiet.nullEffect ∨ s.faulted = false ∧ t = wordEffect w s.quiet) := by
  rw [runWord_eq] at h; exact operate_cases h

/-! ## Runs -/

/-- A run is a run of its first part and then of its second. -/
theorem run_add {j : Nat} (k : Nat) {u : State} (h : run j s = .next u) : run (j + k) s = run k u := by
  induction j generalizing s with
  | zero => cases h; rw [Nat.zero_add]
  | succ j ih =>
    rw [Nat.succ_add, run]
    rw [run] at h
    cases hs : step s with
    | next v => rw [hs] at h; exact ih h
    | fault r => rw [hs] at h; cases h
    | refused r => rw [hs] at h; cases h

/-- The decisions of a run are those of its first part and then those of its second. -/
theorem emissionTimes_add {j : Nat} (k : Nat) {u : State} (h : run j s = .next u) :
    emissionTimes (j + k) s = emissionTimes j s ++ emissionTimes k u := by
  induction j generalizing s with
  | zero => cases h; rw [Nat.zero_add]; rfl
  | succ j ih =>
    rw [Nat.succ_add, emissionTimes, emissionTimes]
    rw [run] at h
    cases hs : step s with
    | next v => rw [hs] at h; simp only [ih h, List.append_assoc]
    | fault r => rw [hs] at h; cases h
    | refused r => rw [hs] at h; cases h

end Sys2Proof.Machine
end

