-- ==== Sys2Proof/Laws/Unpack.lean ====
section
/-! SUPPORT. The unpacker's loops, each said once in terms of the payload's bit stream (R30): which stream bits a lane takes,
and what the one-integer forms of R66 and R68 hold at each bit. -/

namespace Sys2Proof.Machine

/-- Bit `j` of the payload's stream: bit `j mod 8` of byte `floor(j / 8)` (R30). -/
def streamBit (p : Nat → Byte) (j : Nat) : Bool := (p (j / 8)).getLsbD (j % 8)

/-- The inner loop of R65: from a cursor at stream position `start + filled`, with the first `filled` bits taken, it takes
the 11 bits from `start` on, and leaves the cursor at `start + 11`. -/
theorem fillLane_spec (p : Nat → Byte) (start turns : Nat) : ∀ (c : Cursor) (filled v : Nat),
    c.bit < 8 → 8 * c.byte + c.bit = start + filled → filled ≤ 11 → 11 - filled ≤ turns →
    (∀ j, v.testBit j = (decide (j < filled) && streamBit p (start + j))) →
    (∀ j, (fillLane p turns c filled v).1.testBit j = (decide (j < 11) && streamBit p (start + j)))
      ∧ (fillLane p turns c filled v).2.bit < 8
      ∧ 8 * (fillLane p turns c filled v).2.byte + (fillLane p turns c filled v).2.bit = start + 11 := by
  induction turns with
  | zero =>
    intro c f v hb hp hf ht hv
    obtain rfl : f = 11 := by omega
    exact ⟨hv, hb, hp⟩
  | succ n ih =>
    intro c f v hb hp hf ht hv
    unfold fillLane
    by_cases h : f < 11
    · simp only [Config.channelBits, h, if_true]
      have hadv : (c.advance (min (8 - c.bit) (11 - f))).bit < 8
          ∧ 8 * (c.advance (min (8 - c.bit) (11 - f))).byte + (c.advance (min (8 - c.bit) (11 - f))).bit
            = start + (f + min (8 - c.bit) (11 - f)) := by
        unfold Cursor.advance; split <;> constructor <;> simp only <;> omega
      refine ih _ _ _ hadv.1 hadv.2 (by omega) (by omega) fun j => ?_
      rw [Nat.testBit_or, hv, Nat.testBit_shiftLeft, Nat.testBit_and, Nat.testBit_shiftRight, Nat.testBit_two_pow_sub_one]
      by_cases h1 : j < f
      · simp [h1, show ¬f ≤ j by omega, show j < f + min (8 - c.bit) (11 - f) by omega]
      · by_cases h2 : j < f + min (8 - c.bit) (11 - f)
        · have e1 : (start + j) / 8 = c.byte := by omega
          have e2 : (start + j) % 8 = c.bit + (j - f) := by omega
          have e3 : j - f < min (8 - c.bit) (11 - f) := by omega
          simp only [h1, h2, e3, streamBit, e1, e2, show j ≥ f by omega]
          simp [BitVec.getLsbD]
        · have e3 : ¬j - f < min (8 - c.bit) (11 - f) := by omega
          simp only [h1, h2, e3]; simp
    · obtain rfl : f = 11 := by omega
      simp only [Config.channelBits, lt_irrefl, if_false]
      exact ⟨hv, hb, hp⟩

/-- The outer loop of R65: lane `i` takes the 11 stream bits from `start + 11 * i` on. -/
theorem fillLanes_spec (p : Nat → Byte) (n : Nat) : ∀ (start : Nat) (c : Cursor), c.bit < 8 → 8 * c.byte + c.bit = start →
    ∀ i < n, ∃ r, (fillLanes p n c)[i]? = some r
      ∧ ∀ j, r.testBit j = (decide (j < 11) && streamBit p (start + 11 * i + j)) := by
  induction n with
  | zero => simp
  | succ n ih =>
    intro start c hb hp i hi
    obtain ⟨h1, h2, h3⟩ := fillLane_spec p start 11 c 0 0 hb (by simpa using hp) (by omega) (by omega) (by simp)
    cases i with
    | zero => exact ⟨_, rfl, by simpa using h1⟩
    | succ i =>
      obtain ⟨r, hr, hb⟩ := ih (start + 11) _ h2 h3 i (by omega)
      refine ⟨r, by simpa [fillLanes] using hr, fun j => ?_⟩
      rw [hb]; congr 2; ring

/-- Bit `j` of channel `i + 1` is stream bit `11 * i + j` (R31). -/
theorem unpack_bit (p : Nat → Byte) {i j : Nat} (hi : i < 16) (hj : j < 11) :
    ((unpack p)[i]).getLsbD j = streamBit p (11 * i + j) := by
  obtain ⟨r, hr, hb⟩ := fillLanes_spec p 16 0 ⟨0, 0⟩ (by simp) (by simp) i hi
  simp only [unpack, Vector.getElem_ofFn, Config.channels, hr, Option.getD_some, BitVec.getLsbD_ofNat, hb, hj, decide_true,
    Bool.true_and, Nat.zero_add]

/-- Adding a field above the bits already there is placing its bits. -/
theorem testBit_add_field {a n : Nat} (b : Nat) (ha : a < 2 ^ n) (j : Nat) :
    (a + (b <<< n)).testBit j = (if j < n then a.testBit j else b.testBit (j - n)) := by
  rw [Nat.shiftLeft_eq, Nat.add_comm, Nat.mul_comm, Nat.testBit_two_pow_mul_add _ ha]

theorem payloadValue_lt (p : Nat → Byte) (n : Nat) : payloadValue p n < 2 ^ (8 * n) := by
  induction n with
  | zero => simp [payloadValue]
  | succ n ih =>
    have hb : (p n).toNat * 2 ^ (8 * n) ≤ 255 * 2 ^ (8 * n) := Nat.mul_le_mul_right _ (by have := (p n).isLt; omega)
    have he : (2 : Nat) ^ (8 * (n + 1)) = 256 * 2 ^ (8 * n) := by rw [Nat.mul_succ, pow_add]; ring
    simp only [payloadValue, Nat.shiftLeft_eq]
    omega

/-- Bit `j` of `S` (R66) is stream bit `j`. -/
theorem payloadValue_bit (p : Nat → Byte) (n j : Nat) :
    (payloadValue p n).testBit j = (decide (j < 8 * n) && streamBit p j) := by
  induction n with
  | zero => simp [payloadValue]
  | succ n ih =>
    rw [payloadValue, testBit_add_field _ (payloadValue_lt p n), ih]
    by_cases h : j < 8 * n
    · simp [h, show j < 8 * (n + 1) by omega]
    · by_cases h2 : j < 8 * (n + 1)
      · simp [h, h2, streamBit, BitVec.getLsbD, show j / 8 = n by omega, show j - 8 * n = j % 8 by omega]
      · have : (p n).getLsbD (j - 8 * n) = false := BitVec.getLsbD_of_ge _ _ (by omega)
        simp [h, h2]; exact this

theorem channelsValue_lt (ch : ChannelSet) (n : Nat) : channelsValue ch n < 2 ^ (11 * n) := by
  induction n with
  | zero => simp [channelsValue]
  | succ n ih =>
    have hb : ((ch[n]?).getD 0#11).toNat * 2 ^ (11 * n) ≤ 2047 * 2 ^ (11 * n) :=
      Nat.mul_le_mul_right _ (by have := ((ch[n]?).getD 0#11).isLt; omega)
    have he : (2 : Nat) ^ (11 * (n + 1)) = 2048 * 2 ^ (11 * n) := by rw [Nat.mul_succ, pow_add]; ring
    simp only [channelsValue, Nat.shiftLeft_eq]
    omega

/-- Bit `j` of `S` (R68) is bit `j mod 11` of channel `floor(j / 11) + 1`. -/
theorem channelsValue_bit (ch : ChannelSet) (n j : Nat) :
    (channelsValue ch n).testBit j = (decide (j < 11 * n) && ((ch[j / 11]?).getD 0#11).getLsbD (j % 11)) := by
  induction n with
  | zero => simp [channelsValue]
  | succ n ih =>
    rw [channelsValue, testBit_add_field _ (channelsValue_lt ch n), ih]
    by_cases h : j < 11 * n
    · simp [h, show j < 11 * (n + 1) by omega]
    · by_cases h2 : j < 11 * (n + 1)
      · simp [h, h2, BitVec.getLsbD, show j / 11 = n by omega, show j - 11 * n = j % 11 by omega]
      · have : ((ch[n]?).getD 0#11).getLsbD (j - 11 * n) = false := BitVec.getLsbD_of_ge _ _ (by omega)
        simp [h, h2]; exact this

end Sys2Proof.Machine
end

