-- ==== Sys2Proof/Laws/Words.lean ====
section
/-! SUPPORT. Each response and event word the engine builds is one it can produce (R49 to R51, R53): one lemma per word. -/

namespace Sys2Proof.Machine

open Sys2Proof.Laws

theorem crcResponse_legal (r : Byte) : respLegal (crcResponse r) := by
  simp (disch := omega) [respLegal, respStatus, respFcause, respDecided, respActivate, respChval, respResult8, crcResponse,
    extract_field_below, extract_field_above, extract_field_same]

theorem okResponse_legal : respLegal okResponse := by decide

theorem rejectResponse_legal (r : RejectReason) : respLegal (rejectResponse r) := by
  cases r <;> simp only [rejectResponse, rejectCode] <;> decide

theorem faultResponse_legal : ∀ c : BitVec 4, 1 ≤ c.toNat → c.toNat ≤ 4 → respLegal (faultResponse c) := by decide

theorem decisionResponse_legal (v : Channel) (act : Bool) : respLegal (decisionResponse v act) := by
  simp (disch := omega) [respLegal, respStatus, respFcause, respDecided, respActivate, respChval, respResult8,
    decisionResponse, extract_or, extract_field_below, extract_field_above, extract_field_same]

theorem rejectEvent_legal (r : RejectReason) : eventLegal (rejectEvent r) := by
  cases r with
  | configChannelOutOfRange c => revert c; decide
  | invalidLength => decide
  | invalidType => decide
  | checksumMismatch => decide

theorem faultEvent_legal (c : FaultCause) : eventLegal (faultEvent c) := by cases c <;> decide

theorem decodeEvent_legal (c : BitVec 5) (v : Channel) : eventLegal (decodeEvent c v) := by
  simp (disch := omega) [eventLegal, eventKind, eventCode, eventValue, eventActivate, eventThreshold, eventChanIdx,
    decodeEvent, extract_or, extract_field_below, extract_field_above, extract_field_same]

theorem decisionEvent_legal (act : Bool) (c : BitVec 5) (v : Channel) (thr : BitVec 11) :
    eventLegal (decisionEvent act c v thr) := by
  simp (disch := omega) [eventLegal, eventKind, eventCode, eventValue, eventActivate, eventThreshold, eventChanIdx,
    decisionEvent, extract_or, extract_field_below, extract_field_above, extract_field_same]

/-- The four causes have the codes 1 to 4 (R51). -/
theorem causeCode_legal (c : FaultCause) : 1 ≤ (causeCode c).toNat ∧ (causeCode c).toNat ≤ 4 := by cases c <;> decide

/-- Nothing driven is a legal reply (R52, R103). -/
theorem idle_legal : Reply.idle.legal :=
  ⟨by simp [Reply.idle], by simp [Reply.idle], by simp [Reply.idle], by simp [Reply.idle], by simp [Reply.idle]⟩

end Sys2Proof.Machine
end

