-- ==== Sys2Proof/Tests/Slice0.lean ====
section
/-! SUPPORT. Tests. Expected values are the spec's own (95_test_vectors.md and the examples in the rules), never the model's.
Then the witnesses: for every statement with hypotheses, a concrete state and operands that meet them all. -/

namespace Sys2Proof.Tests

open Sys2Proof Sys2Proof.Machine

/-! ## Helpers -/

/-- The next state, if there is one. -/
def next? (r : Result) : Option State :=
  match r with
  | .next t => some t
  | .fault _ => none
  | .refused _ => none

/-- A state at the gate and fault state given, with one command pending. -/
def at1 (gv : Bool) (gl : Int) (f : Bool) (c : BitVec 4) (cmd : Word) (data : List Byte) (now : Int) : State :=
  { State.reset with
    gateValid := gv, gateLast := BitVec.ofInt 64 gl, faulted := f, fcause := c,
    pending := [.command ⟨cmd, data, BitVec.ofInt 64 now⟩] }

/-- The same from reset, at `NOW_SEC` = 100. -/
def fresh (cmd : Word) (data : List Byte) : State := at1 false 0 false 0#4 cmd data 100

/-- Response, events and strobes after one step. -/
def reply (s : State) : Option (Option Word × List EventWord × List Bool) :=
  (next? (step s)).map fun t => (t.out.resp, t.out.events, t.out.strobes)

/-- The four persistent elements after one step. -/
def persistent (s : State) : Option (Bool × Int × Bool × Nat) :=
  (next? (step s)).map fun t => (t.gateValid, t.gateLast.toInt, t.faulted, t.fcause.toNat)

/-- `RES_CH[1..16]` after one step. -/
def channels (s : State) : Option (List Nat) := (next? (step s)).map fun t => t.out.resCh.toList.map BitVec.toNat

/-- The first 25 bytes of the spec's frames FA, FB and FS, with the sync, length and type bytes given. -/
def frameOf (sync len type check : Byte) : List Byte :=
  [sync, len, type, 0x00#8, 0x00#8, 0x00#8, 0x77#8, 0x01#8] ++ List.replicate 17 0x00#8 ++ [check]

/-- FA (95_test_vectors.md section 0). -/
def fa : List Byte := frameOf 0xC8#8 0x18#8 0x16#8 0x90#8
/-- FA's payload. -/
def payloadFA : List Byte := [0x00#8, 0x00#8, 0x00#8, 0x77#8, 0x01#8] ++ List.replicate 17 0x00#8
/-- FF: every channel 2047. -/
def ff : List Byte := [0xC8#8, 0x18#8, 0x16#8] ++ List.replicate 22 0xFF#8 ++ [0x8F#8]
/-- F4: the shortest valid frame. -/
def f4 : List Byte := [0xC8#8, 0x02#8, 0x16#8, 0xD3#8]
/-- F25. -/
def f25 : List Byte := [0xC8#8, 0x17#8, 0x16#8, 0x00#8, 0x00#8, 0x00#8, 0x77#8, 0x01#8] ++ List.replicate 16 0x00#8 ++ [0x82#8]
/-- F64: FA's payload and 38 bytes more. -/
def f64 : List Byte :=
  [0xC8#8, 0x3E#8, 0x16#8, 0x00#8, 0x00#8, 0x00#8, 0x77#8, 0x01#8] ++ List.replicate 17 0x00#8
    ++ List.replicate 38 0x55#8 ++ [0xD7#8]

/-! ## WellFormed: an ill-formed term for each check -/

/-- R44: 0 to 64 legal. -/
theorem test_wf_digest_len : digestLenLegal 64#8 = true ∧ digestLenLegal 65#8 = false := by decide
/-- R45: 22 to 64 executes. -/
theorem test_wf_unpack_len : unpackLenLegal 22#8 = true ∧ unpackLenLegal 21#8 = false ∧ unpackLenLegal 65#8 = false := by
  decide
/-- R46: 1 to 16 valid. -/
theorem test_wf_chan_idx :
    chanIdxLegal 1#5 = true ∧ chanIdxLegal 16#5 = true ∧ chanIdxLegal 0#5 = false ∧ chanIdxLegal 17#5 = false := by decide
/-- The check of an instruction is that of its fields. -/
theorem test_wf_instr : Instr.legal (.unpack 21#8) = false ∧ Instr.legal (.process 26#8 0#5 0#11) = false
    ∧ Instr.legal (.crcDigest 65#8) = false ∧ Instr.legal (.crcUpdate 0#8 0#8) = true := by decide
/-- R48, R98: exactly LEN bytes. -/
theorem test_wf_delivered : Transaction.delivered ⟨0x00000102#32, [0x16#8], 0#64⟩ = true
    ∧ Transaction.delivered ⟨0x00000102#32, [], 0#64⟩ = false ∧ HostAction.delivered (.command ⟨0x00000001#32, [0#8], 0#64⟩) = false := by
  decide

/-! ## Decode: words written out from the encodings of R43 to R46 -/

/-- R43's pattern `00000000 DDDDDDDD AAAAAAAA 0000 0001` with DATA = 0x3C, ACC = 0x5A (T-C13). -/
theorem test_decode_crcUpdate :
    decode 0b00000000_00111100_01011010_0000_0001#32 = .instr (.crcUpdate 0x5A#8 0x3C#8) := by decide
/-- R44's pattern `00000000 00000000 LLLLLLLL 0000 0010` with LEN = 9. -/
theorem test_decode_crcDigest : decode 0b00000000_00000000_00001001_0000_0010#32 = .instr (.crcDigest 9#8) := by decide
/-- R45's pattern `00000000 00000000 LLLLLLLL 0000 0011` with LEN = 22. -/
theorem test_decode_unpack : decode 0b00000000_00000000_00010110_0000_0011#32 = .instr (.unpack 22#8) := by decide
/-- R46's pattern `TTTTTTTTTTT IIIII LLLLLLLL 0000 0100` with THRESHOLD = 1000, CHAN_IDX = 3, LEN = 26. -/
theorem test_decode_process :
    decode 0b01111101000_00011_00011010_0000_0100#32 = .instr (.process 26#8 3#5 1000#11) := by decide
/-- R42: illegal opcodes. -/
theorem test_decode_illegal : decode 0x00000000#32 = .rejected .illegalOp ∧ decode 0x0000000F#32 = .rejected .illegalOp
    ∧ decode 0x00000005#32 = .rejected .illegalOp := by decide
/-- R47 step 3 and its order after step 2 (T-F4 to T-F6, T-P30). -/
theorem test_decode_reserved : decode 0x01010001#32 = .rejected .reservedNonzero
    ∧ decode 0x00010002#32 = .rejected .reservedNonzero ∧ decode 0x7D031A14#32 = .rejected .reservedNonzero
    ∧ decode 0x000000F0#32 = .rejected .illegalOp := by decide
/-- The encoder gives the words of T-C13, T-C16, T-U and R57. -/
theorem test_encode : encode (.crcUpdate 0x5A#8 0x3C#8) = 0x003C5A01#32 ∧ encode (.crcDigest 9#8) = 0x00000902#32
    ∧ encode (.unpack 32#8) = 0x00002003#32 ∧ encode (.process 26#8 3#5 1000#11) = 0x7D031A04#32 := by decide
/-- The rows of the opcode table overlap nowhere: two rows disagree on a bit both of them fix. -/
theorem test_rows_disjoint :
    opcodeTable.Pairwise fun a b => a.pattern &&& (a.mask &&& b.mask) ≠ b.pattern &&& (a.mask &&& b.mask) := by decide
/-- A table word is laid out least significant byte first and read back (D17). -/
theorem test_table_word : decodeTableWord 32 0x7D031A04 = some (.process 26#8 3#5 1000#11)
    ∧ decodeTableWord 32 0x5 = none := by decide
/-- Serialisation, least significant byte first (R30, D17). -/
theorem test_serialise : Transaction.serialise ⟨0x00000102#32, [0x16#8], 0#64⟩ = [0x02#8, 0x01#8, 0x00#8, 0x00#8, 0x16#8] := by
  decide
/-- R57's example line gives CMD = 0x7D031A04 and the `now=` sample. -/
theorem test_assemble :
    (assemble 0#64 ("PROCESS len=3, chan=3, thr=1000 @ now=-5 : C8 01 16".toList)).map (fun t => (t.cmd, t.data, t.now.toInt))
      = some (0x7D030304#32, [0xC8#8, 0x01#8, 0x16#8], -5) := by decide

/-! ## CRC_UPDATE and CRC_DIGEST (T-C) -/

/-- T-C9 with its hand trace E9, and T-C12. -/
theorem test_update : update 0x00#8 0x80#8 = 0xEF#8 ∧ update 0xFF#8 0xFF#8 = 0x00#8 := by decide
/-- T-C13. -/
theorem test_crcUpdate : reply (fresh 0x003C5A01#32 []) = some (some 0x0000B800#32, [], []) := by decide
/-- T-C16, the check value. -/
theorem test_crcDigest_check :
    reply (fresh 0x00000902#32 [0x31#8, 0x32#8, 0x33#8, 0x34#8, 0x35#8, 0x36#8, 0x37#8, 0x38#8, 0x39#8])
      = some (some 0x0000BC00#32, [], []) := by decide +kernel
/-- T-C20, LEN = 64 is legal. -/
theorem test_crcDigest_64 : reply (fresh 0x00004002#32 (List.replicate 64 0xFF#8)) = some (some 0x0000C600#32, [], []) := by
  decide +kernel
/-- T-F7, LEN = 65 faults. -/
theorem test_crcDigest_65 : reply (fresh 0x00004102#32 (List.replicate 65 0x00#8))
    = some (some 0x3000000F#32, [0x0000000000000034#64], []) := by decide

/-! ## UNPACK (T-U) -/

/-- T-U5: every lane distinct. -/
theorem test_unpack_lanes :
    channels (fresh 0x00001603#32 [0x64#8, 0x40#8, 0x06#8, 0x4B#8, 0x20#8, 0x43#8, 0x1F#8, 0x2C#8, 0xF1#8, 0x0A#8, 0x64#8,
      0x84#8, 0x43#8, 0x1F#8, 0x13#8, 0x61#8, 0x49#8, 0x51#8, 0xBC#8, 0x72#8, 0x17#8, 0xC8#8])
      = some [100, 200, 300, 400, 500, 600, 700, 800, 900, 1000, 1100, 1200, 1300, 1400, 1500, 1600] := by decide +kernel
/-- T-U9: bytes past the 22nd are ignored. -/
theorem test_unpack_extra :
    channels (fresh 0x00002003#32 (payloadFA ++ List.replicate 10 0xAA#8))
      = some [0, 0, 1500, 0, 0, 0, 0, 0, 0, 0, 0, 0, 0, 0, 0, 0] := by decide +kernel
/-- T-F8 and T-F9: the underrun, and the range check before it. -/
theorem test_unpack_faults :
    reply (fresh 0x00001503#32 (List.replicate 21 0x00#8)) = some (some 0x4000000F#32, [0x0000000000000044#64], [])
    ∧ reply (fresh 0x00004103#32 (List.replicate 65 0x00#8)) = some (some 0x3000000F#32, [0x0000000000000034#64], []) := by
  decide

/-! ## PROCESS (T-P) -/

/-- T-P1. -/
theorem test_process_activate :
    reply (fresh 0x7D031A04#32 fa) = some (some 0x05DC0030#32, [0x00000000BB830002#64, 0x000003E8BB830103#64], [true])
    ∧ persistent (fresh 0x7D031A04#32 fa) = some (true, 100, false, 0) := by decide +kernel
/-- T-P9: equality deactivates. -/
theorem test_process_equal :
    reply (fresh 0xBB831A04#32 fa) = some (some 0x05DC0010#32, [0x00000000BB830002#64, 0x000005DCBB830003#64], [false]) := by
  decide +kernel
/-- T-P13: channel 16. -/
theorem test_process_last_channel :
    reply (fresh 0xFFD01A04#32 ff) = some (some 0x07FF0030#32, [0x00000000FFF00002#64, 0x000007FEFFF00103#64], [true]) := by
  decide +kernel
/-- T-P3, T-P4: checksum and length rejections. -/
theorem test_process_rejects :
    reply (fresh 0x7D031A04#32 (frameOf 0xC8#8 0x18#8 0x16#8 0x6F#8)) = some (some 0x00000003#32, [0x31#64], [])
    ∧ reply (fresh 0x7D030304#32 [0xC8#8, 0x01#8, 0x16#8]) = some (some 0x00000001#32, [0x11#64], []) := by
  decide +kernel
/-- T-P6, T-P7: length and type rejections. -/
theorem test_process_rejects_more :
    reply (fresh 0x7D034104#32 (List.replicate 65 0x00#8)) = some (some 0x00000001#32, [0x11#64], [])
    ∧ reply (fresh 0x7D031A04#32 (frameOf 0xC8#8 0x18#8 0x17#8 0xE5#8)) = some (some 0x00000002#32, [0x21#64], []) := by
  decide +kernel
/-- T-P14 to T-P16: the configuration guard, and a closed gate that hides it. -/
theorem test_process_chan_idx :
    reply (fresh 0x7D001A04#32 fa) = some (some 0x00000004#32, [0x41#64], [])
    ∧ reply (fresh 0x7D111A04#32 fa) = some (some 0x00000004#32, [0x0000000000110041#64], [])
    ∧ reply (at1 true 100 false 0#4 0x7D1F1A04#32 fa 100) = some (some 0x00000000#32, [], []) := by decide +kernel
/-- T-P17 to T-P19: the gate, by a second. -/
theorem test_process_gate :
    reply (at1 true 100 false 0#4 0x7D031A04#32 fa 100) = some (some 0x00000000#32, [], [])
    ∧ persistent (at1 true 100 false 0#4 0x7D031A04#32 fa 101) = some (true, 101, false, 0)
    ∧ reply (at1 true 100 false 0#4 0x7D031A04#32 fa 99) = some (some 0x00000000#32, [], []) := by decide +kernel
/-- T-P22 and T-P23: the exact difference, no wrap. -/
theorem test_process_gate_exact :
    persistent (at1 true 9223372036854775807 false 0#4 0x7D031A04#32 fa (-9223372036854775808))
      = some (true, 9223372036854775807, false, 0)
    ∧ persistent (at1 true (-9223372036854775808) false 0#4 0x7D031A04#32 fa 9223372036854775807)
      = some (true, 9223372036854775807, false, 0)
    ∧ (reply (at1 true 9223372036854775807 false 0#4 0x7D031A04#32 fa (-9223372036854775808))).map (·.1)
      = some (some 0x00000000#32) := by decide +kernel
/-- T-P24 and T-P26: a short frame that passes validation faults. -/
theorem test_process_underrun :
    reply (fresh 0x7D030404#32 f4) = some (some 0x4000000F#32, [0x44#64], [])
    ∧ persistent (fresh 0x7D031904#32 f25) = some (false, 0, true, 4) := by decide +kernel
/-- T-P27 and T-P28: 64 bytes; sync and length bytes not checked. -/
theorem test_process_lengths :
    (reply (fresh 0x7D034004#32 f64)).map (·.1) = some (some 0x05DC0030#32)
    ∧ (reply (fresh 0x7D031A04#32 (frameOf 0x00#8 0xFF#8 0x16#8 0x90#8))).map (·.1) = some (some 0x05DC0030#32) := by
  decide +kernel

/-! ## Faults, the fault state, reset (T-F, P3) -/

/-- T-F2 and T-F4. -/
theorem test_decode_faults :
    reply (fresh 0x00000005#32 []) = some (some 0x1000000F#32, [0x14#64], [])
    ∧ persistent (fresh 0x01010001#32 []) = some (false, 0, true, 2) := by decide
/-- T-F12 and T-F13: the fault state answers its first cause. -/
theorem test_fault_state :
    reply (at1 false 0 true 1#4 0x7D031A04#32 fa 100) = some (some 0x1000000F#32, [], [])
    ∧ persistent (at1 false 0 true 2#4 0x00000007#32 [] 100) = some (false, 0, true, 2) := by decide
/-- R103: reset leaves the fault state and the gate. -/
theorem test_reset_step :
    persistent { at1 true 10 true 4#4 0#32 [] 0 with pending := [.reset] } = some (false, 0, false, 0) := by decide
/-- R33: nothing pending, nothing driven. -/
theorem test_idle : next? (step State.reset) = some State.reset := by decide
/-- U13: a data block that is not LEN bytes is refused. -/
theorem test_block_length : next? (step (fresh 0x7D031A04#32 [])) = none := by decide
/-- A table word is the next command of a machine fresh from reset, and runs (T-C13's word). -/
theorem test_fetch_word : (reply (State.reset.withFetchWord 32 0x003C5A01)).map (·.1) = some (some 0x0000B800#32) := by decide

/-! ## Witnesses: concrete states and operands that meet every hypothesis of a statement, at the edges of its clauses -/

/-- A machine fresh from reset with a data block on its port. -/
def holding (data : List Byte) : State := { State.reset with block := data }

/-- A machine fresh from reset with host actions pending. -/
def waiting (actions : List HostAction) : State := { State.reset with pending := actions }

/-- FA on the port at `NOW_SEC` = 101, the last emission at 100: the gate opens exactly now. -/
def justOpen : State := { holding fa with gateValid := true, gateLast := 100#64, nowSec := 101#64 }

/-- FA on the port in the second of the last emission: the gate is closed. -/
def justClosed : State := { holding fa with gateValid := true, gateLast := 100#64, nowSec := 100#64 }

/-- The transaction of FA for channel 3, threshold 1000, at `NOW_SEC` = 100 (T-P1). -/
def txFA : Transaction := ⟨0x7D031A04#32, fa, 100#64⟩

/-- The same ten seconds later. -/
def txFA' : Transaction := ⟨0x7D031A04#32, fa, 110#64⟩

/-- A machine in the fault state with cause 4 (P3). -/
def faulty (actions : List HostAction) : State := { waiting actions with faulted := true, fcause := 4#4 }

theorem witness_EncodeOfDecodedWordIsTheWord : decode 0xFFFFFF04#32 = .instr (.process 255#8 31#5 2047#11) := by decide

theorem witness_DecodingFollowsTheOpcodeTable :
    ∀ r ∈ opcodeTable, r.fits r.pattern = true ∧ r.fits (r.pattern ||| 0x10#32) = false := by decide

theorem witness_BlockLengthComesFromTheWord :
    (0x0000FF02#32).extractLsb' 0 4 = 2#4 ∧ blockLen 0x0000FF02#32 = 255
      ∧ (0x0000FF01#32).extractLsb' 0 4 = 1#4 ∧ blockLen 0x0000FF01#32 = 0 ∧ blockLen 0x0000FF0F#32 = 0 := by decide

theorem witness_SerialisedTransactionReadsBack : txFA.delivered = true ∧ Transaction.delivered ⟨0x00000002#32, [], 0#64⟩ = true := by
  decide

theorem witness_AssembledLinesAreCommands :
    (assemble 0#64 "CRC_DIGEST len=2 : 16 00".toList) = some ⟨0x00000202#32, [0x16#8, 0x00#8], 0#64⟩ := by decide

theorem witness_StepRunsTheDecodedCommand :
    (waiting [.command txFA]).pending = [.command txFA] ∧ decode txFA.cmd = .instr (.process 26#8 3#5 1000#11) := by decide

theorem witness_IllegalOpcodeFaults :
    (waiting [.command ⟨0x00000005#32, [], 0#64⟩]).pending = .command ⟨0x00000005#32, [], 0#64⟩ :: []
      ∧ (waiting [.command ⟨0x00000005#32, [], 0#64⟩]).faulted = false ∧ 5 ≤ ((0x00000005#32).extractLsb' 0 4).toNat
      ∧ (0x00000000#32).extractLsb' 0 4 = 0#4 ∧ 5 ≤ ((0xFFFFFFFF#32).extractLsb' 0 4).toNat := by decide

theorem witness_NonzeroReservedFieldFaults :
    (waiting [.command ⟨0x01000001#32, [], 0#64⟩]).pending = .command ⟨0x01000001#32, [], 0#64⟩ :: []
    ∧ (waiting [.command ⟨0x01000001#32, [], 0#64⟩]).faulted = false
    ∧ ((0x01000001#32).extractLsb' 0 4 = 1#4 ∧ (0x01000001#32).extractLsb' 24 8 ≠ 0#8)
    ∧ ((0x00010003#32).extractLsb' 0 4 = 3#4 ∧ (0x00010003#32).extractLsb' 16 16 ≠ 0#16
        ∧ ([] : List Byte).length = ((0x00010003#32).extractLsb' 8 8).toNat)
    ∧ ((0x00000114#32).extractLsb' 0 4 = 4#4 ∧ (0x00000114#32).extractLsb' 4 4 ≠ 0#4
        ∧ [0#8].length = ((0x00000114#32).extractLsb' 8 8).toNat) := by decide

theorem witness_FaultStateAnswersOnlyItsCause :
    (faulty [.command txFA]).faulted = true ∧ txFA.data.length = blockLen txFA.cmd
      ∧ isPlainCommand (.command txFA) = true ∧ (faulty []).pending = []
      ∧ (next? (step (faulty [.command txFA]))).isSome = true ∧ (next? (step (faulty []))).isSome = true := by decide

theorem witness_FaultStateIsSticky :
    (faulty [.command txFA, .command ⟨0x00000000#32, [], 0#64⟩]).noResetPending
      ∧ (next? (run 3 (faulty [.command txFA, .command ⟨0x00000000#32, [], 0#64⟩]))).isSome = true := by decide

theorem witness_FaultEntryIsPrecise :
    ((next? (step (fresh 0x7D031904#32 f25))).map fun t => (t.faulted, t.fcause)) = some (true, 4#4)
      ∧ ((next? (step (fresh 0x0000000F#32 []))).map fun t => (t.faulted, t.fcause)) = some (true, 1#4) := by decide +kernel

theorem witness_ResetSetsEveryStateElement :
    (faulty [.reset, .command txFA]).pending = .reset :: [.command txFA] := by decide

theorem witness_ResetDuringCommandIsBeforeOrAfter :
    (faulty [.commandUnderReset txFA]).pending = [.commandUnderReset txFA] ∧ txFA.data.length = blockLen txFA.cmd
      ∧ ([] : List Byte).length = blockLen 0x0000000F#32 ∧ ([] : List Byte).length = blockLen 0x01000001#32 := by decide

theorem witness_IdleEngineWaits : (faulty []).pending = [] := by decide

theorem witness_StepStopsOnlyForBrokenDelivery :
    HostAction.delivered (.command ⟨0x7D031A04#32, [], 0#64⟩) = false
      ∧ HostAction.delivered (.commandUnderReset ⟨0x7D031A04#32, [], 0#64⟩) = false
      ∧ HostAction.delivered (.command txFA) = true ∧ HostAction.delivered .reset = true := by decide

theorem witness_ConformingHostIsServedToTheEnd :
    (waiting [.command txFA, .reset, .commandUnderReset txFA]).hostDelivers := by decide

theorem witness_DigestSeesOneChangedByte : (0x00#8 : Byte) ≠ 0x80#8 := by decide

theorem witness_CrcUpdateCompletes : (holding []).block = [] ∧ (holding []).faulted = false := by decide

theorem witness_CrcDigestCompletes :
    (holding (List.replicate 64 0xFF#8)).faulted = false ∧ (holding []).block.length = (0#8 : BitVec 8).toNat
      ∧ (holding (List.replicate 64 0xFF#8)).block.length = (64#8 : BitVec 8).toNat ∧ (64#8 : BitVec 8).toNat ≤ 64 := by decide

theorem witness_CrcDigestTooLongFaults :
    (holding (List.replicate 65 0#8)).faulted = false ∧ (holding (List.replicate 65 0#8)).block.length = (65#8 : BitVec 8).toNat ∧ 64 < (65#8 : BitVec 8).toNat := by decide

theorem witness_UnpackReadsOnlyTwentyTwoBytes :
    (∀ k, k < 22 → (fun _ => 0#8 : Nat → Byte) k = (fun k => if k < 22 then 0#8 else 1#8 : Nat → Byte) k)
      ∧ (fun _ => 0#8 : Nat → Byte) 22 ≠ (fun k => if k < 22 then 0#8 else 1#8 : Nat → Byte) 22 := by decide

theorem witness_UnpackCompletes :
    (holding payloadFA).block.length = (22#8 : BitVec 8).toNat ∧ (holding payloadFA).faulted = false
      ∧ (holding (List.replicate 64 0#8)).block.length = (64#8 : BitVec 8).toNat := by decide

theorem witness_UnpackLengthFaults :
    (holding (List.replicate 65 0#8)).faulted = false ∧ (holding (List.replicate 21 0#8)).faulted = false
      ∧ ((holding (List.replicate 65 0#8)).block.length = (65#8 : BitVec 8).toNat ∧ 64 < (65#8 : BitVec 8).toNat)
      ∧ ((holding (List.replicate 21 0#8)).block.length = (21#8 : BitVec 8).toNat ∧ (21#8 : BitVec 8).toNat < 22) := by decide

theorem witness_ProcessRejectsBadLength :
    (holding (List.replicate 3 0#8)).faulted = false ∧ (holding f4).faulted = false
      ∧ ((holding (List.replicate 3 0#8)).block.length = (3#8 : BitVec 8).toNat ∧ (3#8 : BitVec 8).toNat < 4)
      ∧ ((holding (List.replicate 65 0#8)).block.length = (65#8 : BitVec 8).toNat ∧ 64 < (65#8 : BitVec 8).toNat)
      ∧ ((holding f4).block.length = (4#8 : BitVec 8).toNat ∧ (holding f64).block.length = (64#8 : BitVec 8).toNat)
      ∧ (next? (exec (.process 4#8 3#5 0#11) (holding f4))).isSome = true := by decide

theorem witness_ProcessRejectsBadType :
    (holding [0xC8#8, 0x02#8, 0x17#8, 0xD3#8]).block.length = (4#8 : BitVec 8).toNat
      ∧ (holding [0xC8#8, 0x02#8, 0x17#8, 0xD3#8]).faulted = false ∧ 4 ≤ (4#8 : BitVec 8).toNat
      ∧ (holding [0xC8#8, 0x02#8, 0x17#8, 0xD3#8]).block[2]? ≠ some 0x16#8 := by decide

/-- F4' (95_test_vectors.md section 0): F4 with a wrong checksum. -/
def f4bad : List Byte := [0xC8#8, 0x02#8, 0x16#8, 0x00#8]

theorem witness_ProcessRejectsBadChecksum :
    ((holding f4bad).block.length = (4#8 : BitVec 8).toNat ∧ (holding f4bad).faulted = false
        ∧ (holding f4bad).block[2]? = some 0x16#8 ∧ (holding f4bad).block[3]? ≠ some (digest ((f4bad.drop 2).take 1)))
      ∧ ((holding f4).block.length = (4#8 : BitVec 8).toNat ∧ (holding f4).faulted = false
        ∧ (holding f4).block[2]? = some 0x16#8 ∧ (holding f4).block[3]? = some (digest ((f4.drop 2).take 1)))
      ∧ (next? (exec (.process 4#8 3#5 0#11) (holding f4))).isSome = true := by decide

theorem witness_ProcessUnderrunFaults :
    (holding f4).validFrame (4#8 : BitVec 8).toNat ∧ (holding f25).validFrame (25#8 : BitVec 8).toNat
      ∧ (25#8 : BitVec 8).toNat < 26 ∧ (holding f25).block.length = (25#8 : BitVec 8).toNat ∧ (holding f25).faulted = false := by decide +kernel

theorem witness_ProcessSuppressedByClosedGate :
    justClosed.validFrame (26#8 : BitVec 8).toNat ∧ justClosed.block.length = (26#8 : BitVec 8).toNat
      ∧ justClosed.faulted = false ∧ justClosed.gateValid = true ∧ justClosed.nowSec.toInt - justClosed.gateLast.toInt < 1 := by decide +kernel

theorem witness_ProcessGuardsChannelIndex :
    justOpen.block.length = (26#8 : BitVec 8).toNat ∧ justOpen.faulted = false
      ∧ justOpen.validFrame (26#8 : BitVec 8).toNat ∧ justOpen.gateIsOpen ∧ ¬justClosed.gateIsOpen
      ∧ (0#5 : BitVec 5).toNat < 1 ∧ 16 < (17#5 : BitVec 5).toNat := by decide +kernel

theorem witness_ProcessEmitsDecision :
    justOpen.block.length = (26#8 : BitVec 8).toNat ∧ justOpen.faulted = false
      ∧ justOpen.validFrame (26#8 : BitVec 8).toNat ∧ justOpen.gateIsOpen
      ∧ 1 ≤ (1#5 : BitVec 5).toNat ∧ (16#5 : BitVec 5).toNat ≤ 16
      ∧ (unpack fun k => justOpen.inByte (3 + k))[(3#5 : BitVec 5).toNat - 1]? = some 1500#11 := by decide +kernel

theorem witness_ThresholdIsStrictAtItsEnds :
    ((next? (exec (.process 26#8 3#5 2047#11) justOpen)).map fun t => t.out.strobes) = some [false]
      ∧ ((next? (exec (.process 26#8 3#5 0#11) justOpen)).map fun t => t.out.strobes) = some [true]
      ∧ ((next? (exec (.process 26#8 1#5 0#11) justOpen)).map fun t => t.out.strobes) = some [false] := by decide +kernel

theorem witness_ProcessIgnoresSyncAndLengthBytes :
    (∃ tail, justOpen.block = 0xC8#8 :: 0x18#8 :: tail) ∧ (next? (exec (.process 26#8 3#5 1000#11) justOpen)).isSome = true :=
  ⟨⟨fa.drop 2, by decide⟩, by decide +kernel⟩

/-- Commands that neither decide nor fault: T-C13, FB (ChecksumMismatch) and FA for channel 0 (ConfigChannelOutOfRange). -/
def undecided : List Transaction :=
  [⟨0x003C5A01#32, [], 0#64⟩, ⟨0x7D031A04#32, frameOf 0xC8#8 0x18#8 0x16#8 0x6F#8, 5#64⟩, ⟨0x7D001A04#32, fa, 100#64⟩]

/-- First clause: a faulted machine, a reset, three commands that do not decide, then FA. -/
theorem witness_FirstDecisionAfterResetIsNotLimited :
    let s := faulty (.reset :: (undecided.map .command ++ .command txFA :: []))
    (decode txFA.cmd = .instr (.process 26#8 3#5 1000#11) ∧ txFA.data.length = (26#8 : BitVec 8).toNat)
      ∧ State.validFrame { s with block := txFA.data } (26#8 : BitVec 8).toNat
      ∧ (next? (run (undecided.length + 1) s)).map (·.faulted) = some false
      ∧ emissionTimes (undecided.length + 1) s = [] := by decide +kernel

/-- Second clause: the same commands after power-on. -/
theorem witness_FirstDecisionAfterResetIsNotLimited_powerOn :
    let s := waiting (undecided.map .command ++ .command txFA :: [])
    (s.gateValid = false ∧ s.faulted = false)
      ∧ State.validFrame { s with block := txFA.data } (26#8 : BitVec 8).toNat
      ∧ (next? (run undecided.length s)).map (·.faulted) = some false
      ∧ emissionTimes undecided.length s = [] := by decide +kernel

theorem witness_FrameOfChecksumAndUnpack :
    (next? (exec (.crcUpdate 1#8 2#8) (holding []))).isSome = true
      ∧ (next? (exec (.crcDigest 65#8) (holding (List.replicate 65 0#8)))).isSome = true
      ∧ (next? (exec (.unpack 22#8) (holding payloadFA))).isSome = true ∧ Instr.legal (.unpack 22#8) = true := by decide +kernel

theorem witness_FrameOfProcess :
    ((next? (exec (.process 26#8 3#5 0#11) justOpen)).map fun t => (t.gateLast, t.out.strobes)) = some (101#64, [true])
      ∧ ((next? (exec (.process 26#8 3#5 0#11) justClosed)).map fun t => (t.gateLast, t.out.strobes)) = some (100#64, [])
      ∧ ((next? (exec (.process 4#8 3#5 0#11) (holding f4))).map fun t => t.out.events) = some [0x44#64] := by decide +kernel

theorem witness_StepKeepsInvariant :
    State.Inv (fresh 0x7D031A04#32 fa) ∧ (next? (step (fresh 0x7D031A04#32 fa))).isSome = true :=
  ⟨⟨.inl ⟨rfl, rfl⟩, fun _ => rfl, idle_legal⟩, by decide +kernel⟩

theorem witness_GateIsWrittenOnlyByEmission :
    (waiting [.command txFA]).pending = .command txFA :: []
      ∧ ((next? (step (waiting [.command txFA]))).map fun t => (t.gateValid, t.gateLast)) = some (true, 100#64)
      ∧ ((next? (step { justOpen with pending := [.command txFA] })).map fun t => (t.gateLast, t.out.strobes))
        = some (100#64, []) := by decide +kernel

theorem witness_OutputsFollowTheEnding :
    justOpen.faulted = false ∧ (next? (exec (.process 26#8 3#5 0#11) justOpen)).isSome = true
      ∧ (next? (exec (.process 26#8 0#5 0#11) justOpen)).isSome = true
      ∧ (next? (exec (.unpack 0#8) (holding []))).isSome = true := by decide +kernel

theorem witness_OnlyProcessReadsTheClock : (next? (exec (.unpack 22#8) (holding payloadFA))).isSome = true := by decide +kernel

theorem witness_NothingElsePersists :
    (waiting [.command txFA]).pending = .command txFA :: []
      ∧ { holding fa with pending := [.command txFA, .reset] }.pending = .command txFA :: [.reset]
      ∧ (waiting [.command txFA]).gateValid = (holding fa).gateValid ∧ (waiting [.command txFA]).block ≠ (holding fa).block
      ∧ (next? (step (waiting [.command txFA]))).isSome = true := by decide +kernel

theorem witness_DecisionsAreOneSecondApart :
    (waiting [.command txFA, .command txFA, .command txFA']).noResetPending
      ∧ emissionTimes 3 (waiting [.command txFA, .command txFA, .command txFA']) = [100, 110] := by decide +kernel

theorem witness_ConformingCommandNeverFaults :
    justOpen.faulted = false ∧ Instr.legal (.process 26#8 3#5 1000#11) = true ∧ 26 ≤ (26#8 : BitVec 8).toNat
      ∧ (next? (exec (.process 26#8 3#5 1000#11) justOpen)).isSome = true := by decide +kernel

end Sys2Proof.Tests
end

/-! # Proofs of the family 10_state.md

What one command can leave (`Ending`), the invariant of the machine, the only write of the gate, and what a command's effect
depends on. -/

namespace Sys2Proof.Machine

/-! ## Every command word, one ending -/

/-- How a command `w` ends that passed the check of the fault state (R47 steps 2 to 4) and started in `s`: the state it
leaves, one constructor per ending of R60, R62, R67, R72 and R88. -/
inductive Ending (w : Word) (s : State) : State → Prop where
  /-- CRC_UPDATE or CRC_DIGEST answers its result (R60, R62). -/
  | checksum (r : Byte) : Ending w s (s.respond (crcResponse r))
  /-- UNPACK drives the channels (R67). -/
  | unpacked (ch : ChannelSet) : Ending w s ((s.driveChannels ch).respond okResponse)
  /-- PROCESS is suppressed by a closed gate (R82). -/
  | suppressed : Ending w s (s.respond okResponse)
  /-- PROCESS rejects its frame or its CHAN_IDX (R86). -/
  | rejected (r : RejectReason) : Ending w s (s.reject r)
  /-- The word or its LEN raises a fault (R88). -/
  | raised (c : FaultCause) : Ending w s (s.raiseFault c)
  /-- PROCESS decides, with the gate open (R78, R81). -/
  | decided (c : BitVec 5) (thr : BitVec 11) (v : Channel) (isProcess : fieldOp w = 0x4#4) (isOpen : s.gateIsOpen) :
      Ending w s (s.emitDecision c thr v s.nowSec)

theorem digestBlock_ending (w : Word) (len : Nat) (s : State) : Ending w s (digestBlock len s) := by
  rcases digestBlock_cases len s with ⟨-, h⟩ | ⟨-, h⟩ <;> rw [h]
  · exact .raised _
  · exact .checksum _

theorem unpackBlock_ending (w : Word) (len : Nat) (s : State) : Ending w s (unpackBlock len s) := by
  rcases unpackBlock_cases len s with ⟨-, h⟩ | ⟨-, h⟩ | ⟨-, h⟩ <;> rw [h]
  · exact .raised _
  · exact .raised _
  · exact .unpacked _

theorem decideFrame_ending {w : Word} (hop : fieldOp w = 0x4#4) (ch : ChannelSet) (c : BitVec 5) (thr : BitVec 11)
    (s : State) : Ending w s (decideFrame ch c thr s.nowSec s) := by
  rcases decideFrame_cases ch c thr s with ⟨-, h⟩ | ⟨-, -, h⟩ | ⟨hopen, _, h⟩ <;> rw [h]
  · exact .suppressed
  · exact .rejected _
  · exact .decided c thr _ hop hopen

theorem processFrame_ending {w : Word} (hop : fieldOp w = 0x4#4) (len : Nat) (c : BitVec 5) (thr : BitVec 11)
    (s : State) : Ending w s (processFrame len c thr s) := by
  rcases processFrame_cases len c thr s with ⟨r, -, h⟩ | ⟨-, -, h⟩ | ⟨-, -, h⟩ <;> rw [h]
  · exact .rejected r
  · exact .raised _
  · exact decideFrame_ending hop _ c thr s

/-- Only a word with OP = 0x4 decodes to PROCESS (R42). -/
theorem fieldOp_of_decode_process {w : Word} {len : BitVec 8} {c : BitVec 5} {thr : BitVec 11}
    (h : decode w = .instr (.process len c thr)) : fieldOp w = 0x4#4 := by
  obtain ⟨-, ⟨-, -, hi⟩ | ⟨-, -, hi⟩ | ⟨-, -, hi⟩ | ⟨hop, -⟩⟩ := decode_instr_cases h
  · cases hi
  · cases hi
  · cases hi
  · exact hop

/-- Whatever its word, a command has one of the endings. -/
theorem wordEffect_ending (w : Word) (s : State) : Ending w s (wordEffect w s) := by
  unfold wordEffect
  cases hd : decode w with
  | rejected why => exact .raised _
  | instr i =>
    cases i with
    | crcUpdate acc data => exact .checksum _
    | crcDigest len => exact digestBlock_ending w _ s
    | unpack len => exact unpackBlock_ending w _ s
    | process len c thr => exact processFrame_ending (fieldOp_of_decode_process hd) _ c thr s

/-! ## The invariant -/

/-- A channel value is an 11-bit number in its 16-bit result word (R52). -/
theorem driveChannels_resCh_le (s : State) (ch : ChannelSet) (i : Fin 16) :
    ((s.driveChannels ch).out.resCh[i]).toNat ≤ 2047 := by
  have hlt : (ch[i.val]).toNat < 2048 := (ch[i.val]).isLt
  simp only [driveChannels_out_resCh, Fin.getElem_fin, Vector.getElem_map, BitVec.toNat_setWidth]
  omega

/-- A command that starts with nothing driven gives a legal reply, however it ends. -/
theorem Ending.reply_legal {w : Word} {s t : State} (h : Ending w s.quiet t) : t.out.legal := by
  obtain ⟨-, -, -, -, hres⟩ := idle_legal
  cases h with
  | checksum r => exact ⟨by simpa using crcResponse_legal r, by simp, by simp, by simp, hres⟩
  | unpacked ch =>
    exact ⟨by simpa using okResponse_legal, by simp, by simp, by simp, driveChannels_resCh_le s ch⟩
  | suppressed => exact ⟨by simpa using okResponse_legal, by simp, by simp, by simp, hres⟩
  | rejected r =>
    exact ⟨by simpa using rejectResponse_legal r, by simpa using rejectEvent_legal r, by simp, by simp, hres⟩
  | raised c =>
    have hword := faultResponse_legal _ (causeCode_legal c).1 (causeCode_legal c).2
    exact ⟨by simpa using hword, by simpa using faultEvent_legal c, by simp, by simp, hres⟩
  | decided c thr v =>
    have hevents : ∀ e ∈ [decodeEvent c v, decisionEvent (comparator v thr) c v thr], eventLegal e :=
      List.forall_mem_cons.mpr ⟨decodeEvent_legal c v, List.forall_mem_singleton.mpr (decisionEvent_legal _ c v thr)⟩
    exact ⟨by simpa using decisionResponse_legal v _, hevents, by simp, by simp, hres⟩

/-- Only a fault writes the fault latch, and it writes a legal cause (R20, R21). -/
theorem Ending.keeps_faultLatch {w : Word} {s t : State} (h : Ending w s t) (hlatch : s.faultLatchLegal) :
    t.faultLatchLegal := by
  cases h with
  | raised c => exact .inr ⟨rfl, causeCode_legal c⟩
  | checksum | unpacked | suppressed | rejected | decided => exact hlatch

/-- Only a decision writes the gate, and it sets GATE_VALID (R81). -/
theorem Ending.keeps_gateLegal {w : Word} {s t : State} (h : Ending w s t) (hgate : s.gateLegal) : t.gateLegal := by
  cases h with
  | decided => exact fun hv => absurd hv (by simp)
  | checksum | unpacked | suppressed | rejected | raised => exact hgate

/-- In the fault state a command answers with the latched cause, a legal one (R89). -/
theorem nullEffect_reply_legal {s : State} (hf : s.faulted = true) (hlatch : s.faultLatchLegal) :
    s.quiet.nullEffect.out.legal := by
  obtain ⟨-, -, -, -, hres⟩ := idle_legal
  obtain ⟨hn, -⟩ | ⟨-, hlo, hhi⟩ := hlatch
  · rw [hf] at hn; cases hn
  · exact ⟨by simpa using faultResponse_legal s.fcause hlo hhi, by simp, by simp, by simp, hres⟩

/-- A command, whatever its word, leads from a legal latch and gate to the invariant; the reply before it is not read. -/
theorem runWord_inv {w : Word} {s t : State} (hlatch : s.faultLatchLegal) (hgate : s.gateLegal)
    (h : runWord w s = .next t) : t.Inv := by
  obtain ⟨-, ⟨hf, rfl⟩ | ⟨-, rfl⟩⟩ := runWord_cases h
  · exact ⟨hlatch, hgate, nullEffect_reply_legal hf hlatch⟩
  · have hend := wordEffect_ending w s.quiet
    exact ⟨hend.keeps_faultLatch hlatch, hend.keeps_gateLegal hgate, hend.reply_legal⟩

theorem resetEngine_faultLatchLegal (s : State) : s.resetEngine.faultLatchLegal := .inl ⟨rfl, rfl⟩

theorem resetEngine_gateLegal (s : State) : s.resetEngine.gateLegal := fun _ => rfl

/-- Both orders of a reset and a command in progress (R104). -/
theorem resetAround_cases {first : Bool} {f : State → Result} {s t : State} (h : resetAround first f s = .next t) :
    f s.resetEngine = .next t ∨ ∃ u, f s = .next u ∧ t = u.resetEngine := by
  unfold resetAround at h
  cases first with
  | true => exact .inl h
  | false =>
    cases hf : f s with
    | next u => rw [hf] at h; cases h; exact .inr ⟨u, rfl, rfl⟩
    | fault r => rw [hf] at h; cases h
    | refused r => rw [hf] at h; cases h

/-- Settles O45, by the host's next action: a command or an idle step keeps the latch and the gate legal and replies with
legal words, and a reset makes both legal whichever side of the command it lands on. -/
theorem stepKeepsInvariant : Obligations.StepKeepsInvariant := by
  unfold Obligations.StepKeepsInvariant
  rintro s t ⟨hlatch, hgate, -⟩ h
  cases hp : s.pending with
  | nil =>
    rw [step_idle hp] at h; cases h
    exact ⟨hlatch, hgate, idle_legal⟩
  | cons a rest =>
    cases a with
    | command tx =>
      rw [step_command hp] at h
      exact runWord_inv (s := s.accept tx rest) hlatch hgate h
    | reset =>
      rw [step_reset hp] at h; cases h
      exact ⟨resetEngine_faultLatchLegal s, resetEngine_gateLegal s, idle_legal⟩
    | commandUnderReset tx =>
      rw [step_commandUnderReset hp] at h
      obtain hbefore | ⟨u, hu, rfl⟩ := resetAround_cases h
      · exact runWord_inv (resetEngine_faultLatchLegal _) (resetEngine_gateLegal _) hbefore
      · obtain ⟨-, -, hout⟩ := runWord_inv (s := s.draw.accept tx rest) hlatch hgate hu
        exact ⟨resetEngine_faultLatchLegal u, resetEngine_gateLegal u, hout⟩

/-! ## The gate -/

/-- The gate moves only with a decision, which an open gate let through (R78, R81). -/
theorem Ending.gate_kept_or_emission {w : Word} {s t : State} (h : Ending w s.quiet t) :
    (t.gateValid = s.gateValid ∧ t.gateLast = s.gateLast ∧ t.out.strobes = [])
    ∨ (t.gateValid = true ∧ t.gateLast = s.nowSec ∧ fieldOp w = 0x4#4 ∧ s.gateIsOpen ∧ ∃ act, t.out.strobes = [act]) := by
  cases h with
  | decided c thr v hop hopen => exact .inr ⟨rfl, rfl, hop, hopen, _, rfl⟩
  | checksum | unpacked | suppressed | rejected | raised => exact .inl ⟨rfl, rfl, rfl⟩

/-- With a valid timestamp, an open gate means a whole second has passed (R78). -/
theorem second_elapsed_of_gateIsOpen {s : State} (hopen : s.gateIsOpen) (hv : s.gateValid = true) :
    s.gateLast.toInt + 1 ≤ s.nowSec.toInt := by
  obtain hn | hel := hopen
  · rw [hv] at hn; cases hn
  · omega

/-- Settles O46: in the fault state the command is null, and out of it the ending says what became of the gate. -/
theorem gateIsWrittenOnlyByEmission : Obligations.GateIsWrittenOnlyByEmission := by
  unfold Obligations.GateIsWrittenOnlyByEmission
  intro s t tx rest hp h
  rw [step_command hp] at h
  obtain ⟨-, ⟨-, rfl⟩ | ⟨hok, rfl⟩⟩ := runWord_cases h
  · exact .inl ⟨rfl, rfl, rfl⟩
  · obtain hkept | ⟨hv, hl, hop, hopen, hact⟩ := (wordEffect_ending tx.cmd (s.accept tx rest).quiet).gate_kept_or_emission
    · exact .inl hkept
    · exact .inr ⟨hv, hl, hop, hok, second_elapsed_of_gateIsOpen hopen, hact⟩

/-! ## Non-interference -/

/-- The same engine and ports, with the model's own two fields replaced (log entries 1 and 6). -/
def State.withModelFields (s : State) (p : List HostAction) (d : Nat) : State := { s with pending := p, draws := d }

section
variable (s : State) (p : List HostAction) (d : Nat)

theorem digestBlock_withModelFields (len : Nat) :
    digestBlock len (s.withModelFields p d) = (digestBlock len s).withModelFields p d := by
  unfold digestBlock; split <;> rfl

theorem unpackBlock_withModelFields (len : Nat) :
    unpackBlock len (s.withModelFields p d) = (unpackBlock len s).withModelFields p d := by
  unfold unpackBlock
  split
  · rfl
  · split <;> rfl

theorem decideFrame_withModelFields (ch : ChannelSet) (c : BitVec 5) (thr : BitVec 11) (now : Time) :
    decideFrame ch c thr now (s.withModelFields p d) = (decideFrame ch c thr now s).withModelFields p d := by
  have hgate : gateOpen (s.withModelFields p d) now = gateOpen s now := rfl
  unfold decideFrame
  rw [hgate]
  split
  · split <;> rfl
  · rfl

theorem processFrame_withModelFields (len : Nat) (c : BitVec 5) (thr : BitVec 11) :
    processFrame len c thr (s.withModelFields p d) = (processFrame len c thr s).withModelFields p d := by
  have hcheck : frameCheck len (s.withModelFields p d) = frameCheck len s := rfl
  unfold processFrame
  rw [hcheck]
  split
  · rfl
  · split
    · rfl
    · exact decideFrame_withModelFields s p d _ c thr s.nowSec

/-- No command's effect reads or writes the model's own fields. -/
theorem wordEffect_withModelFields (w : Word) :
    wordEffect w (s.withModelFields p d) = (wordEffect w s).withModelFields p d := by
  unfold wordEffect
  cases decode w with
  | rejected why => rfl
  | instr i =>
    cases i with
    | crcUpdate acc data => rfl
    | crcDigest len => exact digestBlock_withModelFields s p d _
    | unpack len => exact unpackBlock_withModelFields s p d _
    | process len c thr => exact processFrame_withModelFields s p d _ c thr

end

/-- Two states with the same four elements (R17), once they take the same command and nothing is driven, differ only in the
model's own fields. -/
theorem accept_quiet_eq {s s' : State} (hv : s.gateValid = s'.gateValid) (hl : s.gateLast = s'.gateLast)
    (hf : s.faulted = s'.faulted) (hc : s.fcause = s'.fcause) (tx : Transaction) (rest rest' : List HostAction) :
    (s'.accept tx rest').quiet = (s.accept tx rest).quiet.withModelFields rest' s'.draws := by
  simp only [State.accept, State.quiet, State.withModelFields, hv, hl, hf, hc]

/-- A command that completes does so alike from every state that is the same once nothing is driven. -/
theorem runWord_withModelFields {w : Word} {s s' t : State} {p : List HostAction} {d : Nat}
    (hq : s'.quiet = s.quiet.withModelFields p d) (h : runWord w s = .next t) :
    runWord w s' = .next (t.withModelFields p d) := by
  have hblock : s'.block = s.block := by rw [← quiet_block s', hq]; rfl
  have hfault : s'.faulted = s.faulted := by rw [← quiet_faulted s', hq]; rfl
  obtain ⟨hlen, ⟨hf, rfl⟩ | ⟨hok, rfl⟩⟩ := runWord_cases h
  · rw [runWord_eq, operate_faulted (hblock ▸ hlen) (hfault.trans hf), hq]; rfl
  · rw [runWord_eq, operate_runs (hblock ▸ hlen) (hfault.trans hok), hq, wordEffect_withModelFields]

/-- Settles O49: the second state's step ends in the first one's next state but for the model's own fields. -/
theorem nothingElsePersists : Obligations.NothingElsePersists := by
  unfold Obligations.NothingElsePersists
  intro s s' t tx rest rest' hp hp' hv hl hf hc h
  rw [step_command hp] at h
  rw [step_command hp']
  exact ⟨_, runWord_withModelFields (accept_quiet_eq hv hl hf hc tx rest rest') h, rfl, rfl, rfl, rfl, rfl⟩

end Sys2Proof.Machine

/-! # Proofs of the family 20_memory.md

A transaction's bytes (R30, R48) and the host's list of actions, one taken by each step (R35, R98). -/

namespace Sys2Proof

/-! ## Serialised words -/

theorem length_leBytes (n v : Nat) : (leBytes n v).length = n := by
  induction n generalizing v with
  | zero => rfl
  | succ n ih => rw [leBytes, List.length_cons, ih]

/-- Reading `n` bytes back gives the low `n` bytes of the number that was written. -/
theorem leValue_leBytes (n v : Nat) : leValue (leBytes n v) = v % 256 ^ n := by
  induction n generalizing v with
  | zero => rw [pow_zero, Nat.mod_one]; rfl
  | succ n ih =>
    rw [leBytes, leValue, ih, BitVec.toNat_ofNat, Nat.shiftRight_eq_div_pow, pow_succ' 256]
    exact Nat.mod_mul.symm

/-- A command word's four bytes spell the word (R30). -/
theorem ofNat_leValue_leBytes_four (w : Word) : BitVec.ofNat 32 (leValue (leBytes 4 w.toNat)) = w := by
  have hlt : w.toNat < 256 ^ 4 := w.isLt
  rw [leValue_leBytes, Nat.mod_eq_of_lt hlt, BitVec.ofNat_toNat, BitVec.setWidth_eq]

/-- Behind a command word's four bytes the reader takes the block the word calls for, if it is all there (R48). -/
theorem readTransaction_leBytes_append (now : Time) (w : Word) (rest : List Byte) (h : blockLen w ≤ rest.length) :
    readTransaction now (leBytes 4 w.toNat ++ rest)
      = some (⟨w, rest.take (blockLen w), now⟩, rest.drop (blockLen w)) := by
  have hlen := length_leBytes 4 w.toNat
  have henough : ¬((leBytes 4 w.toNat ++ rest).length < 4 ∨ rest.length < blockLen w) := by
    rw [List.length_append, hlen]; omega
  simp only [readTransaction, List.take_left' hlen, List.drop_left' hlen, ofNat_leValue_leBytes_four, if_neg henough]

theorem Transaction.data_length {tx : Transaction} (h : tx.delivered = true) : tx.data.length = blockLen tx.cmd :=
  beq_iff_eq.mp h

end Sys2Proof

namespace Sys2Proof.Machine

/-- Settles O7: the four bytes spell the word, and the block the word calls for is exactly the delivered data. -/
theorem serialisedTransactionReadsBack : Obligations.SerialisedTransactionReadsBack := by
  unfold Obligations.SerialisedTransactionReadsBack
  intro tx more hdel
  have hlen := Transaction.data_length hdel
  have hfits : blockLen tx.cmd ≤ (tx.data ++ more).length := by rw [List.length_append]; omega
  rw [Transaction.serialise, List.append_assoc, readTransaction_leBytes_append _ _ _ hfits, List.take_left' hlen,
    List.drop_left' hlen]

/-! ## The host's list of actions -/

/-- No ending of a command touches what the host does next. -/
theorem Ending.pending_eq {w : Word} {s t : State} (h : Ending w s t) : t.pending = s.pending := by
  cases h with
  | checksum | unpacked | suppressed | rejected | raised | decided => rfl

/-- A command that completes leaves the host's list as it was, in the fault state or out of it. -/
theorem runWord_pending {w : Word} {s t : State} (h : runWord w s = .next t) : t.pending = s.pending := by
  obtain ⟨-, ⟨-, rfl⟩ | ⟨-, rfl⟩⟩ := runWord_cases h
  · rfl
  · exact (wordEffect_ending w s.quiet).pending_eq

/-- A command with its block delivered completes also when a reset lands before it or after it (R104). -/
theorem resetAround_completes (first : Bool) {w : Word} {s : State} (h : s.block.length = blockLen w) :
    ∃ t, resetAround first (runWord w) s = .next t := by
  cases first with
  | true => exact (runWord_completes w s.resetEngine).mpr h
  | false =>
    obtain ⟨t, ht⟩ := (runWord_completes w s).mpr h
    exact ⟨t.resetEngine, by simp [resetAround, ht]⟩

/-- Such a reset does not touch the host's list either. -/
theorem resetAround_pending {first : Bool} {w : Word} {s t : State} (h : resetAround first (runWord w) s = .next t) :
    t.pending = s.pending := by
  obtain hbefore | ⟨u, hu, rfl⟩ := resetAround_cases h
  · exact runWord_pending (s := s.resetEngine) hbefore
  · rw [resetEngine_pending, runWord_pending hu]

/-- A step completes when the host delivers its next action's block (R98, R110). -/
theorem step_completes {s : State} {a : HostAction} {rest : List HostAction} (hp : s.pending = a :: rest)
    (hdel : a.delivered = true) : ∃ t, step s = .next t := by
  cases a with
  | command tx =>
    rw [step_command hp]
    exact (runWord_completes tx.cmd (s.accept tx rest)).mpr (Transaction.data_length hdel)
  | reset => exact ⟨_, step_reset hp⟩
  | commandUnderReset tx =>
    rw [step_commandUnderReset hp]
    exact resetAround_completes _ (s := s.draw.accept tx rest) (Transaction.data_length hdel)

/-- A step that completes has taken exactly the head of the host's list (R35). -/
theorem step_pending {s t : State} {a : HostAction} {rest : List HostAction} (hp : s.pending = a :: rest)
    (h : step s = .next t) : t.pending = rest := by
  cases a with
  | command tx => rw [step_command hp] at h; exact runWord_pending h
  | reset => rw [step_reset hp] at h; cases h; rfl
  | commandUnderReset tx => rw [step_commandUnderReset hp] at h; exact resetAround_pending h

/-- A conforming host with `actions` pending has them all completed in as many steps. -/
theorem run_serves_pending {actions : List HostAction} {s : State} (hp : s.pending = actions)
    (hdel : s.hostDelivers) : ∃ t, run actions.length s = .next t ∧ t.pending = [] := by
  induction actions generalizing s with
  | nil => exact ⟨s, rfl, hp⟩
  | cons a rest ih =>
    obtain ⟨ha, hrest⟩ := List.forall_mem_cons.mp (hp ▸ hdel : ∀ b ∈ a :: rest, b.delivered = true)
    obtain ⟨u, hu⟩ := step_completes hp ha
    have hup := step_pending hp hu
    obtain ⟨t, ht, hnone⟩ := ih hup (by rw [State.hostDelivers, hup]; exact hrest)
    exact ⟨t, by rw [List.length_cons, run, hu]; exact ht, hnone⟩

/-- Settles O19, by induction on the pending actions: each step completes and takes the head. -/
theorem conformingHostIsServedToTheEnd : Obligations.ConformingHostIsServedToTheEnd := by
  unfold Obligations.ConformingHostIsServedToTheEnd
  exact fun s hdel => run_serves_pending rfl hdel

/-! ## One step -/

/-- A word that decodes runs its instruction (R47). -/
theorem runWord_instr {w : Word} {i : Instr} (h : decode w = .instr i) (s : State) : runWord w s = exec i s := by
  rw [runWord, h]

/-- Settles O9: the step takes the transaction onto the ports and runs its word, which is the decoded instruction. -/
theorem stepRunsTheDecodedCommand : Obligations.StepRunsTheDecodedCommand := by
  unfold Obligations.StepRunsTheDecodedCommand
  intro s tx rest i hp hd
  rw [step_command hp, runWord_instr hd, State.accept]

/-- Settles O17: an idle step only quiets the output ports. -/
theorem idleEngineWaits : Obligations.IdleEngineWaits := by
  unfold Obligations.IdleEngineWaits
  exact fun s hp => step_idle hp

end Sys2Proof.Machine

/-! # Proofs of the family 30_encoding.md

The fields of a command word determine it (R41), decoding said once in both directions (R42, R47), the step of a word that is
rejected or not delivered, and the words a command drives. -/

namespace Sys2Proof

open Sys2Proof.Laws

/-! ## A word is its fields (R41) -/

/-- Two words that agree on adjacent fields agree on the field the two make together. -/
theorem extract_join {x y : Word} {j m n : Nat} (hlo : x.extractLsb' j m = y.extractLsb' j m)
    (hhi : x.extractLsb' (j + m) n = y.extractLsb' (j + m) n) : x.extractLsb' j (n + m) = y.extractLsb' j (n + m) := by
  rw [← BitVec.extractLsb'_append_extractLsb'_eq_extractLsb' rfl, hlo, hhi,
    BitVec.extractLsb'_append_extractLsb'_eq_extractLsb' rfl]

/-- A word is its opcode, its RSV0, its second byte and its upper half (R41). -/
theorem word_ext {x y : Word} (hop : fieldOp x = fieldOp y) (hrsv0 : fieldRsv0 x = fieldRsv0 y)
    (hlen : fieldLen x = fieldLen y) (hhigh : fieldRsv2 x = fieldRsv2 y) : x = y := by
  have hall : x.extractLsb' 0 32 = y.extractLsb' 0 32 :=
    extract_join (m := 16) (n := 16) (extract_join (m := 8) (n := 8) (extract_join (m := 4) (n := 4) hop hrsv0) hlen) hhigh
  rwa [BitVec.extractLsb'_eq_self, BitVec.extractLsb'_eq_self] at hall

/-- The upper half by the two fields of format U (R43). -/
theorem fieldRsv2_ext_formatU {x y : Word} (hdata : fieldData x = fieldData y) (hrsv1 : fieldRsv1 x = fieldRsv1 y) :
    fieldRsv2 x = fieldRsv2 y := extract_join (m := 8) (n := 8) hdata hrsv1

/-- The upper half by the two fields of format P (R46). -/
theorem fieldRsv2_ext_formatP {x y : Word} (hchan : fieldChanIdx x = fieldChanIdx y)
    (hthr : fieldThreshold x = fieldThreshold y) : fieldRsv2 x = fieldRsv2 y :=
  extract_join (m := 5) (n := 11) hchan hthr

/-! ## The fields above bit 15 of an encoded word (R43 to R46) -/

theorem fieldData_encode_crcUpdate (acc data : BitVec 8) : fieldData (encode (.crcUpdate acc data)) = data := by
  simp (disch := omega) [fieldData, encode, extract_or, extract_field_above, extract_field_same]

theorem fieldRsv1_encode_crcUpdate (acc data : BitVec 8) : fieldRsv1 (encode (.crcUpdate acc data)) = 0#8 := by
  simp (disch := omega) [fieldRsv1, encode, extract_or, extract_field_above]

theorem fieldRsv2_encode_crcDigest (len : BitVec 8) : fieldRsv2 (encode (.crcDigest len)) = 0#16 := by
  simp (disch := omega) [fieldRsv2, encode, extract_or, extract_field_above]

theorem fieldRsv2_encode_unpack (len : BitVec 8) : fieldRsv2 (encode (.unpack len)) = 0#16 := by
  simp (disch := omega) [fieldRsv2, encode, extract_or, extract_field_above]

theorem fieldChanIdx_encode_process (len : BitVec 8) (c : BitVec 5) (thr : BitVec 11) :
    fieldChanIdx (encode (.process len c thr)) = c := by
  simp (disch := omega) [fieldChanIdx, encode, extract_or, extract_field_below, extract_field_above, extract_field_same]

theorem fieldThreshold_encode_process (len : BitVec 8) (c : BitVec 5) (thr : BitVec 11) :
    fieldThreshold (encode (.process len c thr)) = thr := by
  simp (disch := omega) [fieldThreshold, encode, extract_or, extract_field_above, extract_field_same]

/-! ## Decoding, both directions (R42, R47) -/

theorem checkReserved_of_zero {n : Nat} {w : Word} {rsv : BitVec n} (i : Instr) (hrsv0 : fieldRsv0 w = 0#4)
    (hrsv : rsv = 0#n) : checkReserved w rsv i = .instr i := by simp [checkReserved, hrsv0, hrsv]

theorem checkReserved_eq_reservedNonzero_iff {n : Nat} {w : Word} {rsv : BitVec n} {i : Instr} :
    checkReserved w rsv i = .rejected .reservedNonzero ↔ fieldRsv0 w ≠ 0#4 ∨ rsv ≠ 0#n := by
  unfold checkReserved
  split
  case isTrue h => exact iff_of_true rfl h
  case isFalse h => exact iff_of_false nofun h

theorem checkReserved_ne_illegalOp {n : Nat} {w : Word} {rsv : BitVec n} {i : Instr} :
    checkReserved w rsv i ≠ .rejected .illegalOp := by
  unfold checkReserved
  split <;> nofun

section
variable {w : Word}

theorem decode_of_op_crcUpdate (h : fieldOp w = 0x1#4) :
    decode w = checkReserved w (fieldRsv1 w) (.crcUpdate (fieldAcc w) (fieldData w)) := by simp [decode, h]

theorem decode_of_op_crcDigest (h : fieldOp w = 0x2#4) :
    decode w = checkReserved w (fieldRsv2 w) (.crcDigest (fieldLen w)) := by simp [decode, h]

theorem decode_of_op_unpack (h : fieldOp w = 0x3#4) :
    decode w = checkReserved w (fieldRsv2 w) (.unpack (fieldLen w)) := by simp [decode, h]

theorem decode_of_op_process (h : fieldOp w = 0x4#4) :
    decode w = checkReserved w 0#0 (.process (fieldLen w) (fieldChanIdx w) (fieldThreshold w)) := by simp [decode, h]

theorem decode_of_op_illegal (h1 : fieldOp w ≠ 0x1#4) (h2 : fieldOp w ≠ 0x2#4) (h3 : fieldOp w ≠ 0x3#4)
    (h4 : fieldOp w ≠ 0x4#4) : decode w = .rejected .illegalOp := by simp [decode, h1, h2, h3, h4]

end

/-- Decoding an encoded command reads back its opcode, finds the reserved fields 0, and reads back each operand. -/
theorem decode_encode (i : Instr) : decode (encode i) = .instr i := by
  have hrsv0 := fieldRsv0_encode i
  have hop := fieldOp_encode i
  have hlen := fieldLen_encode i
  cases i with
  | crcUpdate acc data =>
    have hacc : fieldAcc (encode (.crcUpdate acc data)) = acc := hlen
    rw [decode_of_op_crcUpdate hop, checkReserved_of_zero _ hrsv0 (fieldRsv1_encode_crcUpdate acc data), hacc,
      fieldData_encode_crcUpdate]
  | crcDigest len =>
    rw [decode_of_op_crcDigest hop, checkReserved_of_zero _ hrsv0 (fieldRsv2_encode_crcDigest len), hlen]
  | unpack len =>
    rw [decode_of_op_unpack hop, checkReserved_of_zero _ hrsv0 (fieldRsv2_encode_unpack len), hlen]
  | process len c thr =>
    rw [decode_of_op_process hop, checkReserved_of_zero _ hrsv0 rfl, hlen, fieldChanIdx_encode_process,
      fieldThreshold_encode_process]

/-- A word that decodes agrees with its command's encoding on every field. -/
theorem encode_of_decode {w : Word} {i : Instr} (h : decode w = .instr i) : encode i = w := by
  obtain ⟨hrsv0, hfmt⟩ := decode_instr_cases h
  have h0 : fieldRsv0 (encode i) = fieldRsv0 w := (fieldRsv0_encode i).trans hrsv0.symm
  obtain ⟨hop, hrsv1, rfl⟩ | ⟨hop, hrsv2, rfl⟩ | ⟨hop, hrsv2, rfl⟩ | ⟨hop, rfl⟩ := hfmt
  · exact word_ext ((fieldOp_encode _).trans hop.symm) h0 (fieldLen_encode _)
      (fieldRsv2_ext_formatU (fieldData_encode_crcUpdate _ _) ((fieldRsv1_encode_crcUpdate _ _).trans hrsv1.symm))
  · exact word_ext ((fieldOp_encode _).trans hop.symm) h0 (fieldLen_encode _)
      ((fieldRsv2_encode_crcDigest _).trans hrsv2.symm)
  · exact word_ext ((fieldOp_encode _).trans hop.symm) h0 (fieldLen_encode _)
      ((fieldRsv2_encode_unpack _).trans hrsv2.symm)
  · exact word_ext ((fieldOp_encode _).trans hop.symm) h0 (fieldLen_encode _)
      (fieldRsv2_ext_formatP (fieldChanIdx_encode_process _ _ _) (fieldThreshold_encode_process _ _ _))

theorem decode_eq_illegalOp_iff {w : Word} :
    decode w = .rejected .illegalOp ↔
      fieldOp w ≠ 1#4 ∧ fieldOp w ≠ 2#4 ∧ fieldOp w ≠ 3#4 ∧ fieldOp w ≠ 4#4 := by
  constructor
  · intro h
    refine ⟨fun ho => ?_, fun ho => ?_, fun ho => ?_, fun ho => ?_⟩
    · exact checkReserved_ne_illegalOp ((decode_of_op_crcUpdate ho).symm.trans h)
    · exact checkReserved_ne_illegalOp ((decode_of_op_crcDigest ho).symm.trans h)
    · exact checkReserved_ne_illegalOp ((decode_of_op_unpack ho).symm.trans h)
    · exact checkReserved_ne_illegalOp ((decode_of_op_process ho).symm.trans h)
  · rintro ⟨h1, h2, h3, h4⟩
    exact decode_of_op_illegal h1 h2 h3 h4

theorem decode_eq_reservedNonzero_iff {w : Word} :
    decode w = .rejected .reservedNonzero ↔
      fieldOp w = 1#4 ∧ (fieldRsv0 w ≠ 0#4 ∨ fieldRsv1 w ≠ 0#8)
      ∨ (fieldOp w = 2#4 ∨ fieldOp w = 3#4) ∧ (fieldRsv0 w ≠ 0#4 ∨ fieldRsv2 w ≠ 0#16)
      ∨ fieldOp w = 4#4 ∧ fieldRsv0 w ≠ 0#4 := by
  by_cases h1 : fieldOp w = 1#4
  · simp [decode_of_op_crcUpdate h1, checkReserved_eq_reservedNonzero_iff, h1]
  by_cases h2 : fieldOp w = 2#4
  · simp [decode_of_op_crcDigest h2, checkReserved_eq_reservedNonzero_iff, h2]
  by_cases h3 : fieldOp w = 3#4
  · simp [decode_of_op_unpack h3, checkReserved_eq_reservedNonzero_iff, h3]
  by_cases h4 : fieldOp w = 4#4
  · simp [decode_of_op_process h4, checkReserved_eq_reservedNonzero_iff, h4]
  · simp [decode_of_op_illegal h1 h2 h3 h4, h1, h2, h3, h4]

/-- Settles O1, field by field in `decode_encode`. -/
theorem decodeOfEncodeIsTheInstruction : Obligations.DecodeOfEncodeIsTheInstruction := decode_encode

/-- Settles O2: a word is its fields, and the encoding has the same ones. -/
theorem encodeOfDecodedWordIsTheWord : Obligations.EncodeOfDecodedWordIsTheWord := fun _ _ => encode_of_decode

/-- Settles O4: the two rejections of R47, over the word's bits. -/
theorem rejectedWordsAreIllegalOrReserved : Obligations.RejectedWordsAreIllegalOrReserved :=
  fun _ => ⟨decode_eq_illegalOp_iff, decode_eq_reservedNonzero_iff⟩

/-! ## The opcode table (R42, R47) -/

/-- RSV2 is the two bytes RSV1 and DATA of format U. -/
theorem fieldRsv2_eq_append (w : Word) : fieldRsv2 w = fieldRsv1 w ++ fieldData w :=
  (BitVec.extractLsb'_append_extractLsb'_eq_extractLsb' (len₁ := 8) (len₂ := 8) rfl).symm

theorem fieldRsv2_eq_zero_iff {w : Word} : fieldRsv2 w = 0#16 ↔ fieldData w = 0#8 ∧ fieldRsv1 w = 0#8 := by
  constructor
  · intro h
    rw [fieldRsv2_eq_append] at h
    have hdata : fieldData w = (0#16).extractLsb' 0 8 := h ▸ BitVec.extractLsb'_append_eq_right.symm
    have hrsv1 : fieldRsv1 w = (0#16).extractLsb' 8 8 := h ▸ BitVec.extractLsb'_append_eq_left.symm
    exact ⟨hdata, hrsv1⟩
  · rintro ⟨hdata, hrsv1⟩
    rw [fieldRsv2_eq_append, hdata, hrsv1]
    rfl

/-- Two words are equal exactly when their fields of format U are. -/
theorem word_eq_iff {x y : Word} :
    x = y ↔ fieldOp x = fieldOp y ∧ fieldRsv0 x = fieldRsv0 y ∧ fieldLen x = fieldLen y
      ∧ fieldData x = fieldData y ∧ fieldRsv1 x = fieldRsv1 y := by
  constructor
  · rintro rfl
    exact ⟨rfl, rfl, rfl, rfl, rfl⟩
  · rintro ⟨hop, hrsv0, hlen, hdata, hrsv1⟩
    exact word_ext hop hrsv0 hlen (fieldRsv2_ext_formatU hdata hrsv1)

/-- A row asks of a word, field by field, what its mask lets through. -/
theorem fits_iff {r : OpcodeRow} {w : Word} :
    r.fits w = true ↔ fieldOp w &&& fieldOp r.mask = fieldOp r.pattern
      ∧ fieldRsv0 w &&& fieldRsv0 r.mask = fieldRsv0 r.pattern
      ∧ fieldLen w &&& fieldLen r.mask = fieldLen r.pattern
      ∧ fieldData w &&& fieldData r.mask = fieldData r.pattern
      ∧ fieldRsv1 w &&& fieldRsv1 r.mask = fieldRsv1 r.pattern := by
  rw [OpcodeRow.fits, beq_iff_eq, word_eq_iff]
  simp only [fieldOp, fieldRsv0, fieldLen, fieldData, fieldRsv1, BitVec.extractLsb'_and]

theorem and_nibble (x : BitVec 4) : x &&& 15#4 = x := BitVec.and_allOnes
theorem and_byte (x : BitVec 8) : x &&& 255#8 = x := BitVec.and_allOnes

theorem fits_crcUpdate_iff {w : Word} : OpcodeRow.fits ⟨"CRC_UPDATE", 0x00000001#32, 0xFF0000FF#32⟩ w = true
    ↔ fieldOp w = 1#4 ∧ fieldRsv0 w = 0#4 ∧ fieldRsv1 w = 0#8 := by
  simp [fits_iff, fieldOp, fieldRsv0, fieldLen, fieldData, fieldRsv1, and_nibble, and_byte]

theorem fits_crcDigest_iff {w : Word} : OpcodeRow.fits ⟨"CRC_DIGEST", 0x00000002#32, 0xFFFF00FF#32⟩ w = true
    ↔ fieldOp w = 2#4 ∧ fieldRsv0 w = 0#4 ∧ fieldRsv2 w = 0#16 := by
  rw [fieldRsv2_eq_zero_iff]
  simp [fits_iff, fieldOp, fieldRsv0, fieldLen, fieldData, fieldRsv1, and_nibble, and_byte]

theorem fits_unpack_iff {w : Word} : OpcodeRow.fits ⟨"UNPACK", 0x00000003#32, 0xFFFF00FF#32⟩ w = true
    ↔ fieldOp w = 3#4 ∧ fieldRsv0 w = 0#4 ∧ fieldRsv2 w = 0#16 := by
  rw [fieldRsv2_eq_zero_iff]
  simp [fits_iff, fieldOp, fieldRsv0, fieldLen, fieldData, fieldRsv1, and_nibble, and_byte]

theorem fits_process_iff {w : Word} : OpcodeRow.fits ⟨"PROCESS", 0x00000004#32, 0x000000FF#32⟩ w = true
    ↔ fieldOp w = 4#4 ∧ fieldRsv0 w = 0#4 := by
  simp [fits_iff, fieldOp, fieldRsv0, fieldLen, fieldData, fieldRsv1, and_nibble]

/-- All that a decoded word can be, and each of it decodes (R42, R47). -/
theorem decode_instr_iff {w : Word} {i : Instr} : decode w = .instr i ↔
    fieldRsv0 w = 0#4 ∧
      (fieldOp w = 0x1#4 ∧ fieldRsv1 w = 0#8 ∧ i = .crcUpdate (fieldAcc w) (fieldData w)
      ∨ fieldOp w = 0x2#4 ∧ fieldRsv2 w = 0#16 ∧ i = .crcDigest (fieldLen w)
      ∨ fieldOp w = 0x3#4 ∧ fieldRsv2 w = 0#16 ∧ i = .unpack (fieldLen w)
      ∨ fieldOp w = 0x4#4 ∧ i = .process (fieldLen w) (fieldChanIdx w) (fieldThreshold w)) := by
  refine ⟨decode_instr_cases, ?_⟩
  rintro ⟨hrsv0, ⟨hop, hrsv1, rfl⟩ | ⟨hop, hrsv2, rfl⟩ | ⟨hop, hrsv2, rfl⟩ | ⟨hop, rfl⟩⟩
  · exact (decode_of_op_crcUpdate hop).trans (checkReserved_of_zero _ hrsv0 hrsv1)
  · exact (decode_of_op_crcDigest hop).trans (checkReserved_of_zero _ hrsv0 hrsv2)
  · exact (decode_of_op_unpack hop).trans (checkReserved_of_zero _ hrsv0 hrsv2)
  · exact (decode_of_op_process hop).trans (checkReserved_of_zero _ hrsv0 rfl)

/-- What the word of a command with mnemonic `m` holds in its opcode and reserved fields. -/
theorem exists_decode_mnemonic_iff {w : Word} {m : String} :
    (∃ i, decode w = .instr i ∧ i.mnemonic = m) ↔ fieldRsv0 w = 0#4 ∧
      (fieldOp w = 1#4 ∧ fieldRsv1 w = 0#8 ∧ "CRC_UPDATE" = m
      ∨ fieldOp w = 2#4 ∧ fieldRsv2 w = 0#16 ∧ "CRC_DIGEST" = m
      ∨ fieldOp w = 3#4 ∧ fieldRsv2 w = 0#16 ∧ "UNPACK" = m
      ∨ fieldOp w = 4#4 ∧ "PROCESS" = m) := by
  simp [decode_instr_iff, and_assoc, or_and_right, exists_or, Instr.mnemonic]

/-- Settles O3, row by row: what the row asks of the word's fields is what the decoder asks for the row's command. -/
theorem decodingFollowsTheOpcodeTable : Obligations.DecodingFollowsTheOpcodeTable := by
  unfold Obligations.DecodingFollowsTheOpcodeTable
  intro w r hr
  rw [exists_decode_mnemonic_iff]
  simp only [opcodeTable, List.mem_cons, List.not_mem_nil, or_false] at hr
  obtain rfl | rfl | rfl | rfl := hr
  · rw [fits_crcUpdate_iff]; simp [and_left_comm]
  · rw [fits_crcDigest_iff]; simp [and_left_comm]
  · rw [fits_unpack_iff]; simp [and_left_comm]
  · rw [fits_process_iff]; simp [and_comm]

/-! ## The data block (R48) -/

theorem blockLen_of_block {w : Word} (h : fieldOp w = 2#4 ∨ fieldOp w = 3#4 ∨ fieldOp w = 4#4) :
    blockLen w = (fieldLen w).toNat := if_pos h

theorem blockLen_of_no_block {w : Word} (h : ¬(fieldOp w = 2#4 ∨ fieldOp w = 3#4 ∨ fieldOp w = 4#4)) :
    blockLen w = 0 := if_neg h

theorem Transaction.data_length_ne {tx : Transaction} (h : tx.delivered = false) :
    tx.data.length ≠ blockLen tx.cmd := beq_eq_false_iff_ne.mp h

/-- Settles O6: the two branches of the block's length. -/
theorem blockLengthComesFromTheWord : Obligations.BlockLengthComesFromTheWord :=
  fun _ => ⟨blockLen_of_block, blockLen_of_no_block⟩

/-- Settles O5: six closed words, decoded. -/
theorem specWordsDecode : Obligations.SpecWordsDecode := by
  unfold Obligations.SpecWordsDecode
  decide

end Sys2Proof

namespace Sys2Proof.Machine

open Sys2Proof.Laws

/-! ## Assembled lines (R57) -/

/-- A line assembles only to an instruction's own encoding with a block of the instruction's length. -/
theorem assemble_cases {present : Time} {line : List Char} {tx : Transaction} (h : assemble present line = some tx) :
    ∃ i, tx.cmd = encode i ∧ tx.data.length = i.blockLen := by
  unfold assemble at h
  split at h
  · split at h
    · cases h
      exact ⟨_, rfl, ‹_›⟩
    · cases h
  · cases h

/-- Settles O8: the word is an encoding, so it decodes, and its block length is the instruction's. -/
theorem assembledLinesAreCommands : Obligations.AssembledLinesAreCommands := by
  unfold Obligations.AssembledLinesAreCommands
  intro present line tx h
  obtain ⟨i, hcmd, hlen⟩ := assemble_cases h
  have hdec : decode tx.cmd = .instr i := hcmd ▸ decode_encode i
  exact ⟨beq_iff_eq.mpr (hlen.trans (decode_blockLen hdec)), i, hdec⟩

/-! ## A block that is not delivered (R98, U13) -/

theorem runWord_refuses {w : Word} {s : State} (h : s.block.length ≠ blockLen w) :
    runWord w s = .refused .blockLength := by
  rw [runWord_eq]
  exact operate_refuses h

/-- A refused command is refused on either side of a reset. -/
theorem resetAround_refuses (first : Bool) {w : Word} {s : State} (h : s.block.length ≠ blockLen w) :
    resetAround first (runWord w) s = .refused .blockLength := by
  cases first with
  | true => exact runWord_refuses (s := s.resetEngine) h
  | false => simp [resetAround, runWord_refuses h]

/-- A step is refused when its action does not deliver the block its word calls for. -/
theorem step_refuses {s : State} {a : HostAction} {rest : List HostAction} (hp : s.pending = a :: rest)
    (hdel : a.delivered = false) : step s = .refused .blockLength := by
  cases a with
  | command tx =>
    rw [step_command hp]
    exact runWord_refuses (s := s.accept tx rest) (Transaction.data_length_ne hdel)
  | reset => cases hdel
  | commandUnderReset tx =>
    rw [step_commandUnderReset hp]
    exact resetAround_refuses _ (s := s.draw.accept tx rest) (Transaction.data_length_ne hdel)

/-- A step completes when what is next, if anything is, is delivered. -/
theorem step_completes_of_delivered {s : State} (h : ∀ a rest, s.pending = a :: rest → a.delivered = true) :
    ∃ t, step s = .next t := by
  cases hp : s.pending with
  | nil => exact ⟨_, step_idle hp⟩
  | cons a rest => exact step_completes hp (h a rest hp)

/-- Settles O18: an undelivered action is refused, and a step with none completes, so it is not refused. -/
theorem stepStopsOnlyForBrokenDelivery : Obligations.StepStopsOnlyForBrokenDelivery := by
  unfold Obligations.StepStopsOnlyForBrokenDelivery
  intro s
  refine ⟨⟨fun hrefused => ?_, ?_⟩, step_completes_of_delivered⟩
  · by_contra hnone
    have hdel : ∀ a rest, s.pending = a :: rest → a.delivered = true := fun a rest hp =>
      Bool.eq_true_of_not_eq_false fun hf => hnone ⟨a, rest, hp, hf⟩
    obtain ⟨t, ht⟩ := step_completes_of_delivered hdel
    cases hrefused.symm.trans ht
  · rintro ⟨a, rest, hp, hdel⟩
    exact step_refuses hp hdel

/-! ## A word that is no command (R47, R88) -/

theorem wordEffect_rejected {w : Word} {why : DecodeFault} (h : decode w = .rejected why) (s : State) :
    wordEffect w s = s.raiseFault why.cause := by
  rw [wordEffect, h]

/-- Out of the fault state, a delivered word that the decoder rejects raises its fault and does nothing else. -/
theorem step_rejected {s : State} {tx : Transaction} {rest : List HostAction} {why : DecodeFault}
    (hp : s.pending = .command tx :: rest) (hok : s.faulted = false) (hdec : decode tx.cmd = .rejected why)
    (hlen : tx.data.length = blockLen tx.cmd) :
    step s = .next ((s.accept tx rest).quiet.raiseFault why.cause) := by
  rw [step_command hp, runWord_eq, operate_runs (s := s.accept tx rest) hlen hok, wordEffect_rejected hdec]

/-- Settles O10: the decoder rejects the opcode, and such a word has no block. -/
theorem illegalOpcodeFaults : Obligations.IllegalOpcodeFaults := by
  unfold Obligations.IllegalOpcodeFaults
  intro s tx rest hp hok hop hdata
  have hill : fieldOp tx.cmd ≠ 1#4 ∧ fieldOp tx.cmd ≠ 2#4 ∧ fieldOp tx.cmd ≠ 3#4 ∧ fieldOp tx.cmd ≠ 4#4 := by
    change fieldOp tx.cmd = 0#4 ∨ 5 ≤ (fieldOp tx.cmd).toNat at hop
    bv_omega
  have hlen : tx.data.length = blockLen tx.cmd := by
    rw [hdata, blockLen_of_no_block (by tauto)]; rfl
  rw [step_rejected hp hok (decode_eq_illegalOp_iff.mpr hill) hlen]
  simp only [State.accept, hdata]
  rfl

/-- Settles O11: in each format the decoder rejects the word, and the block is the one the word calls for. -/
theorem nonzeroReservedFieldFaults : Obligations.NonzeroReservedFieldFaults := by
  unfold Obligations.NonzeroReservedFieldFaults
  intro s tx rest hp hok hres
  have hfault : decode tx.cmd = .rejected .reservedNonzero ∧ tx.data.length = blockLen tx.cmd := by
    rw [decode_eq_reservedNonzero_iff]
    obtain ⟨hop, hrsv, hdata⟩ | ⟨hop, hrsv, hlen⟩ | ⟨hop, hrsv, hlen⟩ := hres
    · change fieldOp tx.cmd = 1#4 at hop
      have hnone : blockLen tx.cmd = 0 := blockLen_of_no_block (by simp [hop])
      exact ⟨.inl ⟨hop, hrsv⟩, by rw [hdata, hnone]; rfl⟩
    · exact ⟨.inr (.inl ⟨hop, hrsv⟩), hlen.trans (blockLen_of_block (hop.imp_right .inl)).symm⟩
    · exact ⟨.inr (.inr ⟨hop, hrsv⟩), hlen.trans (blockLen_of_block (.inr (.inr hop))).symm⟩
  obtain ⟨hdec, hlen⟩ := hfault
  rw [step_rejected hp hok hdec hlen]
  rfl

/-! ## The fields of the words a command drives (R49, R53) -/

section
variable (r : Byte) (rej : RejectReason) (cause : BitVec 4) (c : FaultCause) (idx : BitVec 5) (v : Channel) (act : Bool)
  (thr : BitVec 11)

@[simp] theorem respStatus_crcResponse : respStatus (crcResponse r) = 0#4 :=
  extract_field_below _ 0 8 4 (by decide)

@[simp] theorem respDecided_crcResponse : respDecided (crcResponse r) = 0#1 :=
  extract_field_below _ 4 8 1 (by decide)

@[simp] theorem respStatus_rejectResponse : respStatus (rejectResponse rej) = rejectCode rej :=
  extract_low_same _ (by decide)

@[simp] theorem respDecided_rejectResponse : respDecided (rejectResponse rej) = 0#1 :=
  extract_low_above _ 4 1 (by decide)

@[simp] theorem respStatus_faultResponse : respStatus (faultResponse cause) = 0xF#4 := by
  simp (disch := omega) [respStatus, faultResponse, extract_or, extract_field_below]

@[simp] theorem respDecided_faultResponse : respDecided (faultResponse cause) = 0#1 := by
  simp (disch := omega) [respDecided, faultResponse, extract_or, extract_field_below]

@[simp] theorem respFcause_faultResponse : respFcause (faultResponse cause) = cause := by
  simp (disch := omega) [respFcause, faultResponse, extract_or, extract_field_same]

@[simp] theorem respStatus_decisionResponse : respStatus (decisionResponse v act) = 0#4 := by
  simp (disch := omega) [respStatus, decisionResponse, extract_or, extract_field_below]

@[simp] theorem respDecided_decisionResponse : respDecided (decisionResponse v act) = 1#1 := by
  simp (disch := omega) [respDecided, decisionResponse, extract_or, extract_field_below]

@[simp] theorem respActivate_decisionResponse : respActivate (decisionResponse v act) = BitVec.ofBool act := by
  simp (disch := omega) [respActivate, decisionResponse, extract_or, extract_field_below, extract_field_same]

@[simp] theorem respChval_decisionResponse : respChval (decisionResponse v act) = v := by
  simp (disch := omega) [respChval, decisionResponse, extract_or, extract_field_same, extract_field_above]

@[simp] theorem eventKind_rejectEvent : eventKind (rejectEvent rej) = 1#4 := by
  simp (disch := omega) [eventKind, rejectEvent, extract_or, extract_field_below]

@[simp] theorem eventCode_rejectEvent : eventCode (rejectEvent rej) = rejectCode rej := by
  simp (disch := omega) [eventCode, rejectEvent, extract_or, extract_field_below, extract_field_same]

@[simp] theorem eventKind_faultEvent : eventKind (faultEvent c) = 4#4 := by
  simp (disch := omega) [eventKind, faultEvent, extract_or, extract_field_below]

@[simp] theorem eventCode_faultEvent : eventCode (faultEvent c) = causeCode c := by
  simp (disch := omega) [eventCode, faultEvent, extract_or, extract_field_same]

@[simp] theorem eventKind_decodeEvent : eventKind (decodeEvent idx v) = 2#4 := by
  simp (disch := omega) [eventKind, decodeEvent, extract_or, extract_field_below]

@[simp] theorem eventValue_decodeEvent : eventValue (decodeEvent idx v) = v := by
  simp (disch := omega) [eventValue, decodeEvent, extract_or, extract_field_same, extract_field_above]

@[simp] theorem eventKind_decisionEvent : eventKind (decisionEvent act idx v thr) = 3#4 := by
  simp (disch := omega) [eventKind, decisionEvent, extract_or, extract_field_below]

@[simp] theorem eventValue_decisionEvent : eventValue (decisionEvent act idx v thr) = v := by
  simp (disch := omega) [eventValue, decisionEvent, extract_or, extract_field_below, extract_field_same,
    extract_field_above]

@[simp] theorem eventActivate_decisionEvent : eventActivate (decisionEvent act idx v thr) = BitVec.ofBool act := by
  simp (disch := omega) [eventActivate, decisionEvent, extract_or, extract_field_below, extract_field_same]

/-- The four rejections have the STATUS codes 1 to 4 (R50). -/
theorem rejectCode_bounds : 1 ≤ (rejectCode rej).toNat ∧ (rejectCode rej).toNat ≤ 4 := by
  cases rej <;> simp [rejectCode]

/-- The strobe's value is the response's ACTIVATE bit (R96). -/
theorem decide_ofBool_eq_one : decide (BitVec.ofBool act = 1#1) = act := by cases act <;> rfl

end

/-! ## What an instruction can do -/

/-- An instruction runs as its encoding, so out of the fault state it has one of the endings. -/
theorem exec_ending {i : Instr} {s t : State} (hok : s.faulted = false) (h : exec i s = .next t) :
    Ending (encode i) s.quiet t := by
  rw [← runWord_instr (decode_encode i)] at h
  obtain ⟨-, ⟨hf, -⟩ | ⟨-, rfl⟩⟩ := runWord_cases h
  · rw [hok] at hf; cases hf
  · exact wordEffect_ending _ _

/-- Settles O47, ending by ending: each drives its own response, events and strobes. -/
theorem outputsFollowTheEnding : Obligations.OutputsFollowTheEnding := by
  unfold Obligations.OutputsFollowTheEnding
  intro i s t hok h
  cases exec_ending hok h with
  | checksum r => exact ⟨_, rfl, .inr ⟨respDecided_crcResponse r, rfl, .inl ⟨respStatus_crcResponse r, rfl⟩⟩⟩
  | unpacked | suppressed => exact ⟨okResponse, rfl, .inr ⟨by decide, rfl, .inl ⟨by decide, rfl⟩⟩⟩
  | rejected r =>
    have hbounds := rejectCode_bounds r
    rw [← respStatus_rejectResponse r] at hbounds
    have hcode : eventCode (rejectEvent r) = respStatus (rejectResponse r) := by simp
    exact ⟨_, rfl, .inr ⟨respDecided_rejectResponse r, rfl,
      .inr (.inl ⟨hbounds.1, hbounds.2, _, rfl, eventKind_rejectEvent r, hcode⟩)⟩⟩
  | raised c =>
    have hcode : eventCode (faultEvent c) = respFcause (faultResponse (causeCode c)) := by simp
    exact ⟨_, rfl, .inr ⟨respDecided_faultResponse _, rfl,
      .inr (.inr ⟨respStatus_faultResponse _, _, rfl, eventKind_faultEvent c, hcode⟩)⟩⟩
  | decided idx thr v =>
    refine ⟨decisionResponse v (comparator v thr), rfl, .inl ⟨respDecided_decisionResponse _ _,
      respStatus_decisionResponse _ _, ?_, decodeEvent idx v, decisionEvent (comparator v thr) idx v thr, rfl,
      eventKind_decodeEvent _ _, eventKind_decisionEvent _ _ _ _, ?_, ?_, ?_⟩⟩
    · rw [respActivate_decisionResponse, decide_ofBool_eq_one]; rfl
    · rw [eventValue_decodeEvent, respChval_decisionResponse]
    · rw [eventValue_decisionEvent, respChval_decisionResponse]
    · rw [eventActivate_decisionEvent, respActivate_decisionResponse]

end Sys2Proof.Machine

/-! # Proofs of the family 40_checksum.md

The accumulator's shift as a linear bijection (R63 item 5), the digest as a fold (R61, R63 item 4), and the endings of
CRC_UPDATE, CRC_DIGEST and UNPACK (R60, R62, R67). -/

namespace Sys2Proof.Machine

/-! ## The map `M` of R63 -/

/-- The test of `crcShift` is the bit `a[7]` of R59. -/
theorem crcShift_eq (a : Byte) : crcShift a = if a.getLsbD 7 then (a <<< 1) ^^^ 0xD5#8 else a <<< 1 := rfl

/-- The model's iteration is the library's, applied to the XOR of the two arguments. -/
theorem update_eq (acc b : Byte) : update acc b = crcShift^[8] (acc ^^^ b) := rfl

theorem update_comm (acc b : Byte) : update acc b = update b acc := by
  rw [update_eq, update_eq, BitVec.xor_comm]

theorem xor_xor_xor_comm (a b c d : Byte) : (a ^^^ b) ^^^ (c ^^^ d) = (a ^^^ c) ^^^ (b ^^^ d) := by ac_rfl

/-- A shift drops the high bit, and adds the polynomial where that bit was set. -/
theorem crcShift_eq_xor (a : Byte) : crcShift a = (a <<< 1) ^^^ if a.msb then 0xD5#8 else 0#8 := by
  unfold crcShift
  split
  · rfl
  · exact BitVec.xor_zero.symm

/-- A shift is linear over GF(2): where both high bits are set, the two polynomials cancel. -/
theorem crcShift_xor (a b : Byte) : crcShift (a ^^^ b) = crcShift a ^^^ crcShift b := by
  rw [crcShift_eq_xor, crcShift_eq_xor, crcShift_eq_xor, xor_xor_xor_comm, BitVec.shiftLeft_xor_distrib, BitVec.msb_xor]
  congr 1
  cases a.msb <;> cases b.msb <;> rfl

/-- The polynomial is odd, so the bit shifted out is the low bit of the result. -/
theorem crcShift_getLsbD_zero (a : Byte) : (crcShift a).getLsbD 0 = a.msb := by
  rw [crcShift_eq_xor]
  cases a.msb <;> simp

theorem eq_of_msb_of_shiftLeft_one {a b : Byte} (hmsb : a.msb = b.msb) (hshift : a <<< 1 = b <<< 1) : a = b := by
  rw [BitVec.msb_eq_decide, BitVec.msb_eq_decide, decide_eq_decide] at hmsb
  bv_omega

/-- A shift loses nothing: the low bit of the result tells whether the polynomial was added. -/
theorem crcShift_injective : Function.Injective crcShift := by
  intro a b h
  have hmsb : a.msb = b.msb := by rw [← crcShift_getLsbD_zero, h, crcShift_getLsbD_zero]
  rw [crcShift_eq_xor, crcShift_eq_xor, hmsb] at h
  exact eq_of_msb_of_shiftLeft_one hmsb ((BitVec.xor_left_inj _).mp h)

theorem finite_byte : Finite Byte := .of_equiv _ BitVec.equivFin.symm.toEquiv

theorem crcShift_bijective : Function.Bijective crcShift :=
  have := finite_byte
  Finite.injective_iff_bijective.mp crcShift_injective

/-- Eight shifts after an XOR with a fixed byte, each a bijection. -/
theorem update_bijective (acc : Byte) : Function.Bijective (update acc) :=
  (crcShift_bijective.iterate 8).comp (xor_right_involutive acc).bijective

theorem update_xor (a b c d : Byte) : update (a ^^^ c) (b ^^^ d) = update a b ^^^ update c d := by
  have hlinear : Function.Semiconj₂ crcShift (· ^^^ ·) (· ^^^ ·) := crcShift_xor
  rw [update_eq, xor_xor_xor_comm]
  exact hlinear.iterate 8 _ _

/-- Settles O22: `M` is linear and bijective shift by shift, and `update` treats its two arguments alike. -/
theorem updateIsLinearAndInvertible : Obligations.UpdateIsLinearAndInvertible := by
  unfold Obligations.UpdateIsLinearAndInvertible
  refine ⟨update_xor, by decide, update_bijective, fun b => ?_⟩
  rw [funext fun a => update_comm a b]
  exact update_bijective b

/-- Settles O20: the eight iterations, with the high bit tested as bit 7. -/
theorem updateFoldsOneByte : Obligations.UpdateFoldsOneByte := by
  unfold Obligations.UpdateFoldsOneByte
  intro acc b f
  have hf : crcShift = f := funext crcShift_eq
  rw [update_eq, hf]
  rfl

/-! ## The digest (R61) -/

/-- The digest of a concatenation folds on from the digest of its first part (R63 item 4). -/
theorem digest_append (xs ys : List Byte) : digest (xs ++ ys) = ys.foldl update (digest xs) := List.foldl_append

/-- Bytes folded alike keep two accumulators apart. -/
theorem foldl_update_injective (bytes : List Byte) : Function.Injective fun acc => bytes.foldl update acc := by
  induction bytes with
  | nil => exact fun _ _ h => h
  | cons b bytes ih =>
    intro acc acc' h
    apply (update_bijective b).injective
    rw [update_comm b acc, update_comm b acc']
    exact ih h

/-- Settles O23: the accumulators part at the changed byte, and the bytes after it keep them apart. -/
theorem digestSeesOneChangedByte : Obligations.DigestSeesOneChangedByte := by
  unfold Obligations.DigestSeesOneChangedByte
  intro before after x y hxy h
  rw [digest_append, digest_append] at h
  exact hxy ((update_bijective _).injective (foldl_update_injective after h))

/-- Settles O21: the fold's two equations. -/
theorem digestFoldsInOrder : Obligations.DigestFoldsInOrder :=
  ⟨rfl, fun bytes b => digest_append bytes [b]⟩

/-! ## CRC_UPDATE and CRC_DIGEST out of the fault state (R60, R62) -/

theorem exec_crcUpdate (acc data : BitVec 8) (s : State) :
    exec (.crcUpdate acc data) s = operate 0 (fun s => s.respond (crcResponse (update acc data))) s := rfl

theorem exec_crcDigest (len : BitVec 8) (s : State) :
    exec (.crcDigest len) s = operate len.toNat (digestBlock len.toNat) s := rfl

theorem exec_unpack (len : BitVec 8) (s : State) :
    exec (.unpack len) s = operate len.toNat (unpackBlock len.toNat) s := rfl

theorem digestBlock_of_le {len : Nat} (h : len ≤ 64) (s : State) :
    digestBlock len s = s.respond (crcResponse (digest (s.inRange 0 len))) :=
  ((digestBlock_cases len s).resolve_left (by omega)).2

theorem digestBlock_of_gt {len : Nat} (h : 64 < len) (s : State) : digestBlock len s = s.raiseFault .lenOutOfRange :=
  ((digestBlock_cases len s).resolve_right (by omega)).2

/-- Settles O24: the command runs its body, which only responds. -/
theorem crcUpdateCompletes : Obligations.CrcUpdateCompletes := by
  unfold Obligations.CrcUpdateCompletes
  intro acc data s hblock hok
  have hlen : s.block.length = 0 := by rw [hblock]; rfl
  rw [exec_crcUpdate, operate_runs hlen hok]
  rfl

/-- Settles O25: the LEN bytes read are the whole block. -/
theorem crcDigestCompletes : Obligations.CrcDigestCompletes := by
  unfold Obligations.CrcDigestCompletes
  intro len s hlen hok hle
  rw [exec_crcDigest, operate_runs hlen hok, digestBlock_of_le hle, quiet_inRange, ← hlen, inRange_whole]
  rfl

/-- Settles O26: the long block raises the fault before a byte is read. -/
theorem crcDigestTooLongFaults : Obligations.CrcDigestTooLongFaults := by
  unfold Obligations.CrcDigestTooLongFaults
  intro len s hlen hok hgt
  rw [exec_crcDigest, operate_runs hlen hok, digestBlock_of_gt hgt]
  rfl

/-! ## What the three commands leave unchanged -/

/-- `t` is `s` but for the reply, or, where the instruction's fields are not legal, `s` with a fault raised. -/
def RepliesOrFaults (legal : Bool) (s t : State) : Prop :=
  (∃ r, t = { s with out := r }) ∨ (legal = false ∧ ∃ c, t = s.raiseFault c)

theorem digestBlock_repliesOrFaults (len : BitVec 8) (s : State) :
    RepliesOrFaults (digestLenLegal len) s (digestBlock len.toNat s) := by
  obtain ⟨hlen, h⟩ | ⟨-, h⟩ := digestBlock_cases len.toNat s <;> rw [h]
  · exact .inr ⟨decide_eq_false (by omega), _, rfl⟩
  · exact .inl ⟨_, rfl⟩

theorem unpackBlock_repliesOrFaults (len : BitVec 8) (s : State) :
    RepliesOrFaults (unpackLenLegal len) s (unpackBlock len.toNat s) := by
  obtain ⟨hlen, h⟩ | ⟨hlen, h⟩ | ⟨-, h⟩ := unpackBlock_cases len.toNat s <;> rw [h]
  · exact .inr ⟨decide_eq_false (by omega), _, rfl⟩
  · exact .inr ⟨decide_eq_false (by omega), _, rfl⟩
  · exact .inl ⟨_, rfl⟩

/-- A command whose body replies or faults only replies in the fault state (R89), and out of it has its body's effect. -/
theorem operate_repliesOrFaults {n : Nat} {body : State → State} {legal : Bool} {s t : State}
    (hbody : ∀ u, RepliesOrFaults legal u (body u)) (h : operate n body s = .next t) :
    (∃ r, t = { s with out := r }) ∨ (s.faulted = false ∧ legal = false ∧ ∃ c, t = s.quiet.raiseFault c) := by
  obtain ⟨-, ⟨-, rfl⟩ | ⟨hok, rfl⟩⟩ := operate_cases h
  · exact .inl ⟨_, rfl⟩
  · exact (hbody s.quiet).imp_right fun hfault => ⟨hok, hfault⟩

theorem exec_checksum_or_unpack_cases {i : Instr} {s t : State}
    (hi : (∃ acc data, i = .crcUpdate acc data) ∨ (∃ len, i = .crcDigest len) ∨ (∃ len, i = .unpack len))
    (h : exec i s = .next t) :
    (∃ r, t = { s with out := r }) ∨ (s.faulted = false ∧ i.legal = false ∧ ∃ c, t = s.quiet.raiseFault c) := by
  obtain ⟨acc, data, rfl⟩ | ⟨len, rfl⟩ | ⟨len, rfl⟩ := hi
  · exact operate_repliesOrFaults (fun _ => .inl ⟨_, rfl⟩) ((exec_crcUpdate acc data s).symm.trans h)
  · exact operate_repliesOrFaults (digestBlock_repliesOrFaults len) ((exec_crcDigest len s).symm.trans h)
  · exact operate_repliesOrFaults (unpackBlock_repliesOrFaults len) ((exec_unpack len s).symm.trans h)

/-- Settles O42: only the reply changes, or an illegal LEN out of the fault state raises a fault, which writes the latch. -/
theorem frameOfChecksumAndUnpack : Obligations.FrameOfChecksumAndUnpack := by
  unfold Obligations.FrameOfChecksumAndUnpack
  intro i s t hi h
  obtain ⟨r, rfl⟩ | ⟨hok, hillegal, c, rfl⟩ := exec_checksum_or_unpack_cases hi h
  · exact ⟨rfl, rfl, rfl, fun _ => rfl, rfl, rfl, rfl, fun _ => ⟨rfl, rfl⟩⟩
  · have hnone : ¬(s.faulted = true ∨ i.legal = true) := by simp [hok, hillegal]
    exact ⟨rfl, rfl, rfl, fun _ => rfl, rfl, rfl, rfl, fun hf => absurd hf hnone⟩

end Sys2Proof.Machine

/-! # Proofs of the family 41_unpack.md

The payload bytes that `unpack` reads (R64), and the endings of UNPACK out of the fault state by the order of its length
checks (R67, R88). -/

namespace Sys2Proof.Machine

/-! ## What `unpack` reads (R64) -/

/-- Channels are equal when they take the same bits of the stream (R31). -/
theorem unpack_eq_of_streamBit {p q : Nat → Byte} (h : ∀ j < 176, streamBit p j = streamBit q j) : unpack p = unpack q := by
  refine Vector.ext fun i hi => BitVec.eq_of_getLsbD_eq fun j hj => ?_
  rw [unpack_bit p hi hj, unpack_bit q hi hj]
  exact h _ (by omega)

/-- The sixteen lanes take 176 bits, which are those of the bytes 0 to 21. -/
theorem unpack_congr {p q : Nat → Byte} (h : ∀ k < 22, p k = q k) : unpack p = unpack q := by
  refine unpack_eq_of_streamBit fun j hj => ?_
  unfold streamBit
  rw [h (j / 8) (by omega)]

/-- Settles O29: the channels depend only on the bits of the first 22 bytes. -/
theorem unpackReadsOnlyTwentyTwoBytes : Obligations.UnpackReadsOnlyTwentyTwoBytes := by
  unfold Obligations.UnpackReadsOnlyTwentyTwoBytes
  exact fun _ _ => unpack_congr

/-! ## UNPACK out of the fault state (R67) -/

theorem unpackBlock_of_gt {len : Nat} (h : 64 < len) (s : State) : unpackBlock len s = s.raiseFault .lenOutOfRange := by
  obtain ⟨-, heq⟩ | ⟨hlt, -⟩ | ⟨hlegal, -⟩ := unpackBlock_cases len s
  · exact heq
  · omega
  · omega

theorem unpackBlock_of_lt {len : Nat} (h : len < 22) (s : State) : unpackBlock len s = s.raiseFault .unpackUnderrun := by
  obtain ⟨hgt, -⟩ | ⟨-, heq⟩ | ⟨hlegal, -⟩ := unpackBlock_cases len s
  · omega
  · exact heq
  · omega

theorem unpackBlock_of_legal {len : Nat} (hge : 22 ≤ len) (hle : len ≤ 64) (s : State) :
    unpackBlock len s = (s.driveChannels (unpack s.inByte)).respond okResponse := by
  obtain ⟨hgt, -⟩ | ⟨hlt, -⟩ | ⟨-, heq⟩ := unpackBlock_cases len s
  · omega
  · omega
  · exact heq

/-- A block of 22 bytes or more gives `unpack` all it reads: what stands for a byte past the block does not matter. -/
theorem unpack_inByte {s : State} (h : 22 ≤ s.block.length) (pad : Byte) :
    unpack s.inByte = unpack fun k => (s.block[k]?).getD pad := by
  refine unpack_congr fun k hk => ?_
  have hin : k < s.block.length := by omega
  rw [inByte_of_lt s hin, List.getElem?_eq_getElem hin, Option.getD_some]

/-- Settles O30: the legal length drives the channels, read from the delivered bytes alone. -/
theorem unpackCompletes : Obligations.UnpackCompletes := by
  unfold Obligations.UnpackCompletes
  intro len s hlen hok hge hle
  have hblock : 22 ≤ s.block.length := by omega
  rw [exec_unpack, operate_runs hlen hok, unpackBlock_of_legal hge hle, quiet_inByte, unpack_inByte hblock 0#8]
  rfl

/-- Settles O31: either length raises its fault before a byte is read. -/
theorem unpackLengthFaults : Obligations.UnpackLengthFaults := by
  unfold Obligations.UnpackLengthFaults
  intro len s hlen hok
  rw [exec_unpack, operate_runs hlen hok]
  constructor
  · intro hgt
    rw [unpackBlock_of_gt hgt]
    rfl
  · intro hlt
    rw [unpackBlock_of_lt hlt]
    rfl

end Sys2Proof.Machine

/-! # Proofs of the family 42_process.md

PROCESS by its endings: an equation for each condition on the frame, the gate and CHAN_IDX (R73 to R82), one inversion of all
it can do (`ProcessEnding`), the bytes it never reads (R71), and the rate limit over runs (R78, R107). -/

namespace Sys2Proof.Machine

/-! ## The validation steps (R73 to R75) -/

section
variable {len : Nat} {s : State}

theorem frameCheck_eq_invalidLength_iff : frameCheck len s = some .invalidLength ↔ len < 4 ∨ 64 < len := by
  rcases frameCheck_cases len s with ⟨hlen, h⟩ | ⟨hlen, -, h⟩ | ⟨hlen, -, -, h⟩ | ⟨⟨hge, hle, -, -⟩, h⟩ <;> rw [h]
  · exact iff_of_true rfl hlen
  · exact iff_of_false nofun (by omega)
  · exact iff_of_false nofun (by omega)
  · exact iff_of_false nofun (by omega)

theorem frameCheck_of_badType (hge : 4 ≤ len) (hle : len ≤ 64) (htype : s.inByte 2 ≠ 0x16#8) :
    frameCheck len s = some .invalidType := by
  rcases frameCheck_cases len s with ⟨hlen, -⟩ | ⟨-, -, h⟩ | ⟨-, ht, -⟩ | ⟨⟨-, -, ht, -⟩, -⟩
  · omega
  · exact h
  · exact absurd ht htype
  · exact absurd ht htype

/-- A frame of legal length and type has only its checksum left to fail. -/
theorem frameCheck_eq_checksumMismatch_iff (hge : 4 ≤ len) (hle : len ≤ 64) (htype : s.inByte 2 = 0x16#8) :
    frameCheck len s = some .checksumMismatch ↔ s.inByte (len - 1) ≠ digest (s.inRange 2 (len - 1)) := by
  rcases frameCheck_cases len s with ⟨hlen, -⟩ | ⟨-, ht, -⟩ | ⟨-, -, hsum, h⟩ | ⟨⟨-, -, -, hsum⟩, h⟩
  · omega
  · exact absurd htype ht
  · exact iff_of_true h hsum.symm
  · exact iff_of_false (by rw [h]; nofun) (not_not.mpr hsum.symm)

theorem frameCheck_of_validFrame (hv : s.validFrame len) : frameCheck len s = none := by
  obtain ⟨hge, hle, htype, hsum⟩ := hv
  rcases frameCheck_cases len s with ⟨hlen, -⟩ | ⟨-, ht, -⟩ | ⟨-, -, hne, -⟩ | ⟨-, h⟩
  · omega
  · exact absurd htype ht
  · exact absurd hsum hne
  · exact h

end

/-! ## PROCESS, an equation per ending -/

section
variable {len : Nat} {c : BitVec 5} {thr : BitVec 11} {s : State}

theorem processFrame_of_frameCheck {r : RejectReason} (h : frameCheck len s = some r) :
    processFrame len c thr s = s.reject r := by
  rw [processFrame, h]

theorem processFrame_of_underrun (hv : s.validFrame len) (hlt : len < 26) :
    processFrame len c thr s = s.raiseFault .unpackUnderrun := by
  rw [processFrame, frameCheck_of_validFrame hv]
  exact if_pos hlt

theorem processFrame_of_accepted (hv : s.validFrame len) (hge : 26 ≤ len) :
    processFrame len c thr s = decideFrame s.frameChannels c thr s.nowSec s := by
  rw [processFrame, frameCheck_of_validFrame hv]
  exact if_neg (Nat.not_lt.mpr hge)

variable {ch : ChannelSet}

theorem decideFrame_of_closed (hclosed : ¬s.gateIsOpen) :
    decideFrame ch c thr s.nowSec s = s.respond okResponse :=
  if_neg fun h => hclosed ((gateOpen_iff s).mp h)

theorem decideFrame_of_badIndex (hopen : s.gateIsOpen) (hc : c.toNat < 1 ∨ 16 < c.toNat) :
    decideFrame ch c thr s.nowSec s = s.reject (.configChannelOutOfRange c) := by
  rw [decideFrame, if_pos ((gateOpen_iff s).mpr hopen), channelAt_of_illegal ch c hc]

theorem decideFrame_of_channel {v : Channel} (hopen : s.gateIsOpen) (hc : 1 ≤ c.toNat ∧ c.toNat ≤ 16)
    (hv : ch[c.toNat - 1]? = some v) :
    decideFrame ch c thr s.nowSec s = s.emitDecision c thr v s.nowSec := by
  have hchan : channelAt ch c = some v := by
    rw [channelAt_of_legal ch c hc, ← hv, Vector.getElem?_eq_getElem]
  rw [decideFrame, if_pos ((gateOpen_iff s).mpr hopen), hchan]

end

section
variable {len : BitVec 8} {c : BitVec 5} {thr : BitVec 11} {s : State}

theorem exec_process (len : BitVec 8) (c : BitVec 5) (thr : BitVec 11) (s : State) :
    exec (.process len c thr) s = operate len.toNat (processFrame len.toNat c thr) s := rfl

/-- Out of the fault state, with its block delivered, PROCESS is `processFrame` on quiet ports. -/
theorem exec_process_runs (hlen : s.block.length = len.toNat) (hok : s.faulted = false) :
    exec (.process len c thr) s = .next (processFrame len.toNat c thr s.quiet) :=
  operate_runs hlen hok

theorem exec_process_of_frameCheck {r : RejectReason} (hlen : s.block.length = len.toNat) (hok : s.faulted = false)
    (h : frameCheck len.toNat s = some r) : exec (.process len c thr) s = .next (s.quiet.reject r) := by
  rw [exec_process_runs hlen hok, processFrame_of_frameCheck (s := s.quiet) h]

/-- A frame that passes the checks with all its payload meets the gate (R78). -/
theorem exec_process_of_accepted (hlen : s.block.length = len.toNat) (hok : s.faulted = false)
    (hv : s.validFrame len.toNat) (hge : 26 ≤ len.toNat) :
    exec (.process len c thr) s = .next (decideFrame s.frameChannels c thr s.quiet.nowSec s.quiet) := by
  rw [exec_process_runs hlen hok, processFrame_of_accepted (s := s.quiet) hv hge]
  rfl

/-- With the gate closed an accepted frame only answers OK, whatever its CHAN_IDX (R82). -/
theorem exec_process_of_closed (hlen : s.block.length = len.toNat) (hok : s.faulted = false)
    (hv : s.validFrame len.toNat) (hge : 26 ≤ len.toNat) (hclosed : ¬s.gateIsOpen) :
    exec (.process len c thr) s = .next (s.quiet.respond okResponse) := by
  rw [exec_process_of_accepted hlen hok hv hge, decideFrame_of_closed (s := s.quiet) hclosed]

end

/-! ## All that PROCESS can do -/

/-- How PROCESS ends that passed the check of the fault state and started in `s`, each ending with what later proofs need of
its cause (R72). -/
inductive ProcessEnding (len : Nat) (c : BitVec 5) (thr : BitVec 11) (s : State) : State → Prop where
  /-- A validation step rejects the frame (R73 to R75). -/
  | rejected (r : RejectReason) (check : frameCheck len s = some r) : ProcessEnding len c thr s (s.reject r)
  /-- The payload has fewer than 22 bytes (R76). -/
  | underrun : ProcessEnding len c thr s (s.raiseFault .unpackUnderrun)
  /-- The gate is closed (R82). -/
  | suppressed : ProcessEnding len c thr s (s.respond okResponse)
  /-- The gate is open and CHAN_IDX selects no channel (R79). -/
  | badIndex : ProcessEnding len c thr s (s.reject (.configChannelOutOfRange c))
  /-- The gate is open and the selected channel has the value `v` (R81). -/
  | decided (v : Channel) (selected : s.frameChannels[c.toNat - 1]? = some v) :
      ProcessEnding len c thr s (s.emitDecision c thr v s.nowSec)

section
variable {len : Nat} {c : BitVec 5} {thr : BitVec 11} {s t : State}

theorem processFrame_processEnding (len : Nat) (c : BitVec 5) (thr : BitVec 11) (s : State) :
    ProcessEnding len c thr s (processFrame len c thr s) := by
  rcases processFrame_cases len c thr s with ⟨r, hcheck, h⟩ | ⟨-, -, h⟩ | ⟨-, -, h⟩ <;> rw [h]
  · exact .rejected r hcheck
  · exact .underrun
  · rcases decideFrame_cases s.frameChannels c thr s with ⟨-, h⟩ | ⟨-, -, h⟩ | ⟨-, hc, h⟩ <;> rw [h]
    · exact .suppressed
    · exact .badIndex
    · exact .decided _ (Vector.getElem?_eq_getElem (by omega))

/-- PROCESS answers the latched cause in the fault state (R89), and out of it has one of its endings. -/
theorem exec_process_cases {len : BitVec 8} (h : exec (.process len c thr) s = .next t) :
    s.faulted = true ∧ t = s.quiet.nullEffect ∨ s.faulted = false ∧ ProcessEnding len.toNat c thr s.quiet t := by
  rw [exec_process] at h
  obtain ⟨-, hnull | ⟨hok, rfl⟩⟩ := operate_cases h
  · exact .inl hnull
  · exact .inr ⟨hok, processFrame_processEnding _ c thr s.quiet⟩

/-- The STATUS of the reply is the code of the validation step that failed, or one that no validation step has. -/
theorem ProcessEnding.status_cases (h : ProcessEnding len c thr s t) :
    ∃ w, t.out.resp = some w
      ∧ ((∃ r, frameCheck len s = some r ∧ respStatus w = rejectCode r)
        ∨ respStatus w = 0#4 ∨ respStatus w = 4#4 ∨ respStatus w = 0xF#4) := by
  cases h with
  | rejected r hcheck => exact ⟨_, rfl, .inl ⟨r, hcheck, respStatus_rejectResponse r⟩⟩
  | underrun => exact ⟨_, rfl, .inr (.inr (.inr (respStatus_faultResponse _)))⟩
  | suppressed => exact ⟨okResponse, rfl, .inr (.inl (by decide))⟩
  | badIndex => exact ⟨_, rfl, .inr (.inr (.inl (respStatus_rejectResponse _)))⟩
  | decided v => exact ⟨_, rfl, .inr (.inl (respStatus_decisionResponse v _))⟩

theorem rejectCode_eq_one_iff {r : RejectReason} : rejectCode r = 1#4 ↔ r = .invalidLength := by
  cases r <;> simp [rejectCode]

theorem rejectCode_eq_three_iff {r : RejectReason} : rejectCode r = 3#4 ↔ r = .checksumMismatch := by
  cases r <;> simp [rejectCode]

/-- A STATUS of 1 to 3 is answered only where a validation step rejects with that code (R73 to R75). -/
theorem ProcessEnding.frameCheck_of_status {w : Word} (h : ProcessEnding len c thr s t) (hresp : t.out.resp = some w)
    (hlo : 1 ≤ (respStatus w).toNat) (hhi : (respStatus w).toNat ≤ 3) :
    ∃ r, frameCheck len s = some r ∧ rejectCode r = respStatus w := by
  obtain ⟨w', hw', hcase⟩ := h.status_cases
  obtain rfl : w' = w := Option.some.inj (hw'.symm.trans hresp)
  obtain ⟨r, hcheck, hcode⟩ | hother := hcase
  · exact ⟨r, hcheck, hcode.symm⟩
  · bv_omega

theorem exec_process_frameCheck_of_status {len : BitVec 8} {w : Word} (hok : s.faulted = false)
    (h : exec (.process len c thr) s = .next t) (hresp : t.out.resp = some w) (hlo : 1 ≤ (respStatus w).toNat)
    (hhi : (respStatus w).toNat ≤ 3) : ∃ r, frameCheck len.toNat s = some r ∧ rejectCode r = respStatus w := by
  obtain ⟨hf, -⟩ | ⟨-, hend⟩ := exec_process_cases h
  · rw [hok] at hf; cases hf
  · exact hend.frameCheck_of_status hresp hlo hhi

end

/-! ## Rejections of the frame -/

/-- Inside the block, reading a byte is looking it up in the delivered list (R28). -/
theorem getElem?_eq_some_inByte {s : State} {k : Nat} (h : k < s.block.length) : s.block[k]? = some (s.inByte k) := by
  rw [inByte_of_lt s h, List.getElem?_eq_getElem h]

/-- Settles O32: the length is the first check, and its rejection is answered for nothing else. -/
theorem processRejectsBadLength : Obligations.ProcessRejectsBadLength := by
  unfold Obligations.ProcessRejectsBadLength
  intro len c thr s hlen hok
  refine ⟨fun hbad => ?_, fun hlegal t h hresp => ?_⟩
  · rw [exec_process_of_frameCheck hlen hok (frameCheck_eq_invalidLength_iff.mpr hbad)]
    rfl
  · obtain ⟨r, hcheck, hcode⟩ := exec_process_frameCheck_of_status hok h hresp (by decide) (by decide)
    obtain rfl := rejectCode_eq_one_iff.mp hcode
    have hbad := frameCheck_eq_invalidLength_iff.mp hcheck
    omega

/-- Settles O33: with a legal length the type is the next check. -/
theorem processRejectsBadType : Obligations.ProcessRejectsBadType := by
  unfold Obligations.ProcessRejectsBadType
  intro len c thr s hlen hok hge hle hbyte
  rw [getElem?_eq_some_inByte (by omega)] at hbyte
  have htype : s.inByte 2 ≠ 0x16#8 := fun h => hbyte (congrArg some h)
  rw [exec_process_of_frameCheck hlen hok (frameCheck_of_badType hge hle htype)]
  rfl

/-- Settles O34: with a legal length and type the checksum is the last check, and its rejection is answered for nothing
else. -/
theorem processRejectsBadChecksum : Obligations.ProcessRejectsBadChecksum := by
  unfold Obligations.ProcessRejectsBadChecksum
  intro len c thr s hlen hok hge hle hbyte
  have htype : s.inByte 2 = 0x16#8 := Option.some.inj ((getElem?_eq_some_inByte (by omega)).symm.trans hbyte)
  have hcovered : s.inRange 2 (len.toNat - 1) = (s.block.drop 2).take (len.toNat - 3) := inRange_eq_slice s (by omega)
  have hmismatch := frameCheck_eq_checksumMismatch_iff hge hle htype
  rw [getElem?_eq_some_inByte (by omega), ← hcovered]
  refine ⟨fun hdiff => ?_, fun hsame t h hresp => ?_⟩
  · rw [exec_process_of_frameCheck hlen hok (hmismatch.mpr fun he => hdiff (congrArg some he))]
    rfl
  · obtain ⟨r, hcheck, hcode⟩ := exec_process_frameCheck_of_status hok h hresp (by decide) (by decide)
    obtain rfl := rejectCode_eq_three_iff.mp hcode
    exact hmismatch.mp hcheck (Option.some.inj hsame)

/-! ## Frames that pass the checks -/

/-- Settles O35: the underrun check follows the three validation steps. -/
theorem processUnderrunFaults : Obligations.ProcessUnderrunFaults := by
  unfold Obligations.ProcessUnderrunFaults
  intro len c thr s hlen hok hv hlt
  rw [exec_process_runs hlen hok, processFrame_of_underrun (s := s.quiet) hv hlt]
  rfl

/-- Settles O36: less than a second since a valid timestamp is a closed gate. -/
theorem processSuppressedByClosedGate : Obligations.ProcessSuppressedByClosedGate := by
  unfold Obligations.ProcessSuppressedByClosedGate
  intro len c thr s hlen hok hv hge hvalid helapsed
  have hclosed : ¬s.gateIsOpen := by
    rintro (hnever | hsecond)
    · rw [hvalid] at hnever; cases hnever
    · omega
  rw [exec_process_of_closed hlen hok hv hge hclosed]
  rfl

/-- The REJECT event of a bad CHAN_IDX carries it (R79, R86). -/
theorem rejectEvent_configChannelOutOfRange (c : BitVec 5) :
    rejectEvent (.configChannelOutOfRange c) = 0x41#64 ||| (c.setWidth 64 <<< 16) :=
  congrArg (· ||| (c.setWidth 64 <<< 16)) (by decide : 1#64 ||| ((4#4).setWidth 64 <<< 4) = 0x41#64)

/-- Settles O37: the index is looked at only behind an open gate. -/
theorem processGuardsChannelIndex : Obligations.ProcessGuardsChannelIndex := by
  unfold Obligations.ProcessGuardsChannelIndex
  intro len c thr s hlen hok hv hge hc
  refine ⟨fun hopen => ?_, fun hclosed => ?_⟩
  · rw [exec_process_of_accepted hlen hok hv hge, decideFrame_of_badIndex (s := s.quiet) hopen hc,
      State.reject, rejectEvent_configChannelOutOfRange]
    rfl
  · rw [exec_process_of_closed hlen hok hv hge hclosed]
    rfl

/-- Settles O38: behind an open gate a legal index selects the channel that is decided. -/
theorem processEmitsDecision : Obligations.ProcessEmitsDecision := by
  unfold Obligations.ProcessEmitsDecision
  intro len c thr s v hlen hok hv hge hopen hlo hhi hchan
  change s.frameChannels[c.toNat - 1]? = some v at hchan
  rw [exec_process_of_accepted hlen hok hv hge, decideFrame_of_channel (s := s.quiet) hopen ⟨hlo, hhi⟩ hchan]
  rfl

/-! ## The threshold (R80) -/

theorem comparator_eq_true_iff {v : Channel} {thr : BitVec 11} : comparator v thr = true ↔ thr.toNat < v.toNat :=
  decide_eq_true_iff

/-- Every strobe of PROCESS is the comparator's answer on the selected channel (R77, R81). -/
theorem exec_process_strobe {len : BitVec 8} {c : BitVec 5} {thr : BitVec 11} {s t : State} {act : Bool}
    (h : exec (.process len c thr) s = .next t) (hact : act ∈ t.out.strobes) :
    ∃ v, s.frameChannels[c.toNat - 1]? = some v ∧ act = comparator v thr := by
  obtain ⟨-, rfl⟩ | ⟨-, hend⟩ := exec_process_cases h
  · cases hact
  · cases hend with
    | rejected | underrun | suppressed | badIndex => cases hact
    | decided v hv => exact ⟨v, hv, List.mem_singleton.mp hact⟩

/-- Settles O39: no 11-bit value is above 2047, and a value above 0 is at least 1. -/
theorem thresholdIsStrictAtItsEnds : Obligations.ThresholdIsStrictAtItsEnds := by
  unfold Obligations.ThresholdIsStrictAtItsEnds
  constructor
  · intro len c s t h hact
    obtain ⟨v, -, hv⟩ := exec_process_strobe h hact
    have habove : 2047 < v.toNat := comparator_eq_true_iff.mp hv.symm
    omega
  · intro len c s t act h hstrobes
    obtain ⟨v, hchan, rfl⟩ := exec_process_strobe h (hstrobes ▸ List.mem_singleton_self act)
    change comparator v 0#11 = true ↔ ∀ v ∈ s.frameChannels[c.toNat - 1]?, 1 ≤ v.toNat
    rw [comparator_eq_true_iff, hchan]
    simp only [Option.mem_some, forall_eq']
    rfl

/-! ## The bytes PROCESS never reads (R71) -/

/-- The same engine with another data block on its input port. -/
def State.withBlock (s : State) (bytes : List Byte) : State := { s with block := bytes }

section
variable {s : State} {bytes : List Byte}

/-- Validation reads the bytes from 2 on. -/
theorem frameCheck_withBlock (h : ∀ k, 2 ≤ k → (s.withBlock bytes).inByte k = s.inByte k) (len : Nat) :
    frameCheck len (s.withBlock bytes) = frameCheck len s := by
  have hcovered : (s.withBlock bytes).inRange 2 (len - 1) = s.inRange 2 (len - 1) :=
    List.map_congr_left fun k hk => h k (List.mem_range'_1.mp hk).1
  unfold frameCheck
  by_cases hlen : len < Config.frameMin ∨ Config.frameMax < len
  · rw [if_pos hlen, if_pos hlen]
  · have hlast : 2 ≤ len - 1 := by simp only [Config.frameMin] at hlen; omega
    rw [if_neg hlen, if_neg hlen, h 2 (le_refl 2), hcovered, h (len - 1) hlast]

/-- An accepted frame is decided on its channels alone: the block is no longer read. -/
theorem decideFrame_withBlock (ch : ChannelSet) (c : BitVec 5) (thr : BitVec 11) (now : Time) :
    decideFrame ch c thr now (s.withBlock bytes) = (decideFrame ch c thr now s).withBlock bytes := by
  have hgate : gateOpen (s.withBlock bytes) now = gateOpen s now := rfl
  unfold decideFrame
  rw [hgate]
  split
  · split <;> rfl
  · rfl

/-- Blocks that agree from byte 2 on are processed alike. -/
theorem processFrame_withBlock (h : ∀ k, 2 ≤ k → (s.withBlock bytes).inByte k = s.inByte k) (len : Nat) (c : BitVec 5)
    (thr : BitVec 11) : processFrame len c thr (s.withBlock bytes) = (processFrame len c thr s).withBlock bytes := by
  have hpayload : (fun k => (s.withBlock bytes).inByte (3 + k)) = fun k => s.inByte (3 + k) :=
    funext fun k => h (3 + k) (by omega)
  unfold processFrame
  rw [frameCheck_withBlock h, hpayload]
  split
  · rfl
  · split
    · rfl
    · exact decideFrame_withBlock _ c thr s.nowSec

/-- Two blocks that differ only in bytes 0 and 1 read alike from byte 2 on, also past their end. -/
theorem inByte_withBlock_of_two_le {a b a' b' : Byte} {tail : List Byte} (hblock : s.block = a :: b :: tail) {k : Nat}
    (hk : 2 ≤ k) : (s.withBlock (a' :: b' :: tail)).inByte k = s.inByte k := by
  obtain ⟨j, rfl⟩ := Nat.exists_eq_add_of_le' hk
  simp [State.inByte, State.withBlock, hblock]

end

/-- Settles O40: PROCESS reads its block from byte 2 on, and that part and the length are the same in both. -/
theorem processIgnoresSyncAndLengthBytes : Obligations.ProcessIgnoresSyncAndLengthBytes := by
  unfold Obligations.ProcessIgnoresSyncAndLengthBytes
  intro len c thr s t a b a' b' tail hblock h
  rw [exec_process] at h
  obtain ⟨hlen, hcase⟩ := operate_cases h
  have hlen' : (s.withBlock (a' :: b' :: tail)).block.length = len.toNat := by rw [← hlen, hblock]; rfl
  change operate len.toNat _ (s.withBlock (a' :: b' :: tail)) = .next (t.withBlock (a' :: b' :: tail))
  obtain ⟨hf, rfl⟩ | ⟨hok, rfl⟩ := hcase
  · rw [operate_faulted hlen' hf]
    rfl
  · have hread : ∀ k, 2 ≤ k → (s.quiet.withBlock (a' :: b' :: tail)).inByte k = s.quiet.inByte k :=
      fun _ => inByte_withBlock_of_two_le hblock
    rw [operate_runs hlen' hok, ← processFrame_withBlock hread]
    rfl

/-! ## What PROCESS leaves unchanged -/

/-- Settles O43, ending by ending: only a decision writes the gate, and only the underrun the fault latch. -/
theorem frameOfProcess : Obligations.FrameOfProcess := by
  unfold Obligations.FrameOfProcess
  intro len c thr s t h
  obtain ⟨-, rfl⟩ | ⟨-, hend⟩ := exec_process_cases h
  · exact ⟨rfl, fun _ => rfl, rfl, rfl, rfl, .inl ⟨rfl, rfl⟩, .inl ⟨rfl, rfl⟩⟩
  · cases hend with
    | rejected | suppressed | badIndex =>
      exact ⟨rfl, fun _ => rfl, rfl, rfl, rfl, .inl ⟨rfl, rfl⟩, .inl ⟨rfl, rfl⟩⟩
    | underrun => exact ⟨rfl, fun _ => rfl, rfl, rfl, rfl, .inl ⟨rfl, rfl⟩, .inr rfl⟩
    | decided v => exact ⟨rfl, fun _ => rfl, rfl, rfl, rfl, .inr ⟨_, rfl⟩, .inl ⟨rfl, rfl⟩⟩

/-! ## The rate limit over runs (R78, R107) -/

/-- No ending of a command touches the time input. -/
theorem Ending.nowSec_eq {w : Word} {s t : State} (h : Ending w s t) : t.nowSec = s.nowSec := by
  cases h with
  | checksum | unpacked | suppressed | rejected | raised | decided => rfl

/-- A command that completes still presents the time it was sent with (R95). -/
theorem runWord_nowSec {w : Word} {s t : State} (h : runWord w s = .next t) : t.nowSec = s.nowSec := by
  obtain ⟨-, ⟨-, rfl⟩ | ⟨-, rfl⟩⟩ := runWord_cases h
  · rfl
  · exact (wordEffect_ending w s.quiet).nowSec_eq

/-- The step from `s` to `t` decides nothing and keeps the gate. -/
def KeepsGate (s t : State) : Prop := t.gateValid = s.gateValid ∧ t.gateLast = s.gateLast ∧ t.out.strobes = []

/-- The step from `s` to `t` decides, at least one second past a valid timestamp, and stores its time in the gate. -/
def Decides (s t : State) : Prop :=
  t.gateValid = true ∧ t.gateLast = t.nowSec ∧ t.out.strobes ≠ []
    ∧ (s.gateValid = true → s.gateLast.toInt + 1 ≤ t.nowSec.toInt)

/-- The head of a host's list that holds only commands is a command. -/
theorem exists_command_of_noResetPending {s : State} {a : HostAction} {rest : List HostAction} (hplain : s.noResetPending)
    (hp : s.pending = a :: rest) : ∃ tx, a = .command tx := by
  have ha : isPlainCommand a = true := hplain a (hp ▸ List.mem_cons_self)
  cases a with
  | command tx => exact ⟨tx, rfl⟩
  | reset => cases ha
  | commandUnderReset tx => cases ha

/-- With only commands pending, a step keeps the gate or decides. -/
theorem step_keepsGate_or_decides {s t : State} (hplain : s.noResetPending) (h : step s = .next t) :
    KeepsGate s t ∨ Decides s t := by
  cases hp : s.pending with
  | nil =>
    rw [step_idle hp] at h; cases h
    exact .inl ⟨rfl, rfl, rfl⟩
  | cons a rest =>
    obtain ⟨tx, rfl⟩ := exists_command_of_noResetPending hplain hp
    obtain hkept | ⟨hvalid, hlast, -, -, hsecond, act, hact⟩ := gateIsWrittenOnlyByEmission s t tx rest hp h
    · exact .inl hkept
    · rw [step_command hp] at h
      have hnow : t.nowSec = tx.now := runWord_nowSec h
      exact .inr ⟨hvalid, hlast.trans hnow.symm, by rw [hact]; nofun, hnow ▸ hsecond⟩

/-- A step never adds to the host's list, so what was only commands stays so. -/
theorem step_noResetPending {s t : State} (hplain : s.noResetPending) (h : step s = .next t) : t.noResetPending := by
  cases hp : s.pending with
  | nil => rw [step_idle hp] at h; cases h; exact hplain
  | cons a rest =>
    intro b hb
    rw [step_pending hp h] at hb
    exact hplain b (hp ▸ List.mem_cons_of_mem a hb)

section
variable {s t : State} (k : Nat)

theorem emissionTimes_of_keepsGate (hkept : KeepsGate s t) (h : step s = .next t) :
    emissionTimes (k + 1) s = emissionTimes k t := by
  obtain ⟨-, -, hnone⟩ := hkept
  simp only [emissionTimes, h, hnone, if_true, List.nil_append]

theorem emissionTimes_of_decides (hdec : Decides s t) (h : step s = .next t) :
    emissionTimes (k + 1) s = t.nowSec.toInt :: emissionTimes k t := by
  obtain ⟨-, -, hsome, -⟩ := hdec
  simp only [emissionTimes, h, hsome, if_false, List.singleton_append]

end

/-- A step that does not complete ends the list of decisions. -/
theorem emissionTimes_of_stop {s : State} (k : Nat) (h : ∀ t, step s ≠ .next t) : emissionTimes (k + 1) s = [] := by
  rw [emissionTimes]
  cases hs : step s with
  | next t => exact absurd hs (h t)
  | fault r => rfl
  | refused r => rfl

/-- Settles O50, by induction on the steps: a step that decides leaves its own time as the valid timestamp that the rest of
the run must pass by a second. -/
theorem decisionsAreOneSecondApart : Obligations.DecisionsAreOneSecondApart := by
  unfold Obligations.DecisionsAreOneSecondApart
  intro k
  induction k with
  | zero => exact fun s _ => ⟨.nil, fun _ a ha => nomatch ha⟩
  | succ k ih =>
    intro s hplain
    by_cases hstep : ∃ t, step s = .next t
    · obtain ⟨t, ht⟩ := hstep
      obtain ⟨hapart, hpast⟩ := ih t (step_noResetPending hplain ht)
      obtain hkept | hdec := step_keepsGate_or_decides hplain ht
      · rw [emissionTimes_of_keepsGate k hkept ht]
        obtain ⟨hvalid, hlast, -⟩ := hkept
        rw [hvalid, hlast] at hpast
        exact ⟨hapart, hpast⟩
      · rw [emissionTimes_of_decides k hdec ht]
        obtain ⟨hvalid, hlast, -, hsecond⟩ := hdec
        rw [hlast] at hpast
        refine ⟨List.pairwise_cons.mpr ⟨hpast hvalid, hapart⟩, fun hs => List.forall_mem_cons.mpr ⟨hsecond hs, ?_⟩⟩
        intro a ha
        have hfirst := hsecond hs
        have hnext := hpast hvalid a ha
        omega
    · rw [emissionTimes_of_stop k fun t ht => hstep ⟨t, ht⟩]
      exact ⟨.nil, fun _ a ha => nomatch ha⟩

end Sys2Proof.Machine

/-! # Proofs of the family 60_exceptions.md

When the fault latch is entered, kept and never entered (R87 to R89), and which commands read the time input (R95). -/

namespace Sys2Proof.Machine

/-! ## Entering the fault state (R88) -/

/-- The only ending that leaves FAULTED = 1 where it was 0 is a raised fault. -/
theorem Ending.eq_raiseFault_of_faulted {w : Word} {s t : State} (h : Ending w s t) (hok : s.faulted = false)
    (hf : t.faulted = true) : ∃ c, t = s.raiseFault c := by
  cases h with
  | raised c => exact ⟨c, rfl⟩
  | checksum | unpacked | suppressed | rejected | decided => exact absurd (hok.symm.trans hf) Bool.false_ne_true

/-- Settles O14: the command ended by raising a fault, whose cause code is 1 to 4. -/
theorem faultEntryIsPrecise : Obligations.FaultEntryIsPrecise := by
  unfold Obligations.FaultEntryIsPrecise
  intro s t tx rest hp hok h hf
  rw [step_command hp] at h
  obtain ⟨-, ⟨hfaulted, -⟩ | ⟨-, rfl⟩⟩ := runWord_cases h
  · exact absurd (hok.symm.trans hfaulted) Bool.false_ne_true
  · obtain ⟨c, hc⟩ := (wordEffect_ending tx.cmd (s.accept tx rest).quiet).eq_raiseFault_of_faulted hok hf
    obtain ⟨hlo, hhi⟩ := causeCode_legal c
    exact ⟨causeCode c, hlo, hhi, hc⟩

/-! ## Staying in the fault state (R89) -/

/-- The fault latch of `t` is that of `s`. -/
def KeepsLatch (s t : State) : Prop := t.faulted = s.faulted ∧ t.fcause = s.fcause

theorem eq_command_of_isPlainCommand {a : HostAction} (h : isPlainCommand a = true) : ∃ tx, a = .command tx := by
  cases a with
  | command tx => exact ⟨tx, rfl⟩
  | reset => cases h
  | commandUnderReset tx => cases h

/-- In the fault state no command word writes the latch. -/
theorem runWord_keepsLatch_of_faulted {w : Word} {s t : State} (hf : s.faulted = true) (h : runWord w s = .next t) :
    KeepsLatch s t := by
  obtain ⟨-, ⟨-, rfl⟩ | ⟨hok, -⟩⟩ := runWord_cases h
  · exact ⟨rfl, rfl⟩
  · exact absurd (hok.symm.trans hf) Bool.false_ne_true

/-- A step that asserts no reset keeps the latch of the fault state. -/
theorem step_keepsLatch_of_faulted {s t : State} (hf : s.faulted = true)
    (hplain : ∀ a rest, s.pending = a :: rest → isPlainCommand a = true) (h : step s = .next t) : KeepsLatch s t := by
  cases hp : s.pending with
  | nil =>
    rw [step_idle hp] at h; cases h
    exact ⟨rfl, rfl⟩
  | cons a rest =>
    obtain ⟨tx, rfl⟩ := eq_command_of_isPlainCommand (hplain a rest hp)
    rw [step_command hp] at h
    exact runWord_keepsLatch_of_faulted (s := s.accept tx rest) hf h

/-- Settles O12: a delivered command has its null effect, whatever its word, and only a reset would write the latch. -/
theorem faultStateAnswersOnlyItsCause : Obligations.FaultStateAnswersOnlyItsCause := by
  unfold Obligations.FaultStateAnswersOnlyItsCause
  constructor
  · intro s tx rest hp hf hlen
    rw [step_command hp, runWord_eq, operate_faulted (s := s.accept tx rest) hlen hf]
    rfl
  · intro s t hf hplain h
    obtain ⟨hfaulted, hcause⟩ := step_keepsLatch_of_faulted hf hplain h
    exact ⟨hfaulted.trans hf, hcause⟩

/-! ## Commands that never enter it (R87, R76) -/

/-- With a payload of 22 bytes, PROCESS has no ending that faults. -/
theorem processFrame_keepsLatch {len : Nat} (hge : 26 ≤ len) (c : BitVec 5) (thr : BitVec 11) (s : State) :
    KeepsLatch s (processFrame len c thr s) := by
  rcases processFrame_cases len c thr s with ⟨r, -, h⟩ | ⟨-, hlt, -⟩ | ⟨-, -, h⟩
  · rw [h]; exact ⟨rfl, rfl⟩
  · omega
  · rw [h]
    rcases decideFrame_cases s.frameChannels c thr s with ⟨-, h⟩ | ⟨-, -, h⟩ | ⟨-, _, h⟩ <;> rw [h] <;> exact ⟨rfl, rfl⟩

theorem exec_process_keepsLatch {len : BitVec 8} {c : BitVec 5} {thr : BitVec 11} {s t : State} (hge : 26 ≤ len.toNat)
    (h : exec (.process len c thr) s = .next t) : KeepsLatch s t := by
  rw [exec_process] at h
  obtain ⟨-, ⟨-, rfl⟩ | ⟨-, rfl⟩⟩ := operate_cases h
  · exact ⟨rfl, rfl⟩
  · exact processFrame_keepsLatch hge c thr s.quiet

/-- With legal fields, the three commands that are not PROCESS write no latch. -/
theorem exec_checksum_or_unpack_keepsLatch {i : Instr} {s t : State} (hlegal : i.legal = true)
    (hi : (∃ acc data, i = .crcUpdate acc data) ∨ (∃ len, i = .crcDigest len) ∨ (∃ len, i = .unpack len))
    (h : exec i s = .next t) : KeepsLatch s t := by
  obtain ⟨-, -, -, -, -, -, -, hlatch⟩ := frameOfChecksumAndUnpack i s t hi h
  exact hlatch (.inr hlegal)

/-- Settles O51, by the instruction: each keeps the latch, PROCESS by its frame length and the others by their fields. -/
theorem conformingCommandNeverFaults : Obligations.ConformingCommandNeverFaults := by
  unfold Obligations.ConformingCommandNeverFaults
  intro i s t hok hlegal h hpayload
  have hkept : KeepsLatch s t := by
    cases i with
    | crcUpdate acc data => exact exec_checksum_or_unpack_keepsLatch hlegal (.inl ⟨acc, data, rfl⟩) h
    | crcDigest len => exact exec_checksum_or_unpack_keepsLatch hlegal (.inr (.inl ⟨len, rfl⟩)) h
    | unpack len => exact exec_checksum_or_unpack_keepsLatch hlegal (.inr (.inr ⟨len, rfl⟩)) h
    | process len c thr => exact exec_process_keepsLatch (hpayload len c thr rfl) h
  obtain ⟨hfaulted, hcause⟩ := hkept
  exact ⟨hfaulted.trans hok, hcause⟩

/-! ## The time input (R95) -/

/-- The same engine with another time on its input port. -/
def State.withNowSec (s : State) (now : Time) : State := { s with nowSec := now }

section
variable (now : Time)

theorem digestBlock_withNowSec (len : Nat) (s : State) :
    digestBlock len (s.withNowSec now) = (digestBlock len s).withNowSec now := by
  obtain hgt | hle := lt_or_ge 64 len
  · rw [digestBlock_of_gt hgt, digestBlock_of_gt hgt]; rfl
  · rw [digestBlock_of_le hle, digestBlock_of_le hle]; rfl

theorem unpackBlock_withNowSec (len : Nat) (s : State) :
    unpackBlock len (s.withNowSec now) = (unpackBlock len s).withNowSec now := by
  obtain hgt | hle := lt_or_ge 64 len
  · rw [unpackBlock_of_gt hgt, unpackBlock_of_gt hgt]; rfl
  obtain hlt | hge := lt_or_ge len 22
  · rw [unpackBlock_of_lt hlt, unpackBlock_of_lt hlt]; rfl
  · rw [unpackBlock_of_legal hge hle, unpackBlock_of_legal hge hle]; rfl

/-- A command whose body does not read the time ends alike at any time; the null effect never reads it. -/
theorem operate_withNowSec {n : Nat} {body : State → State} {s t : State}
    (hbody : ∀ u : State, body (u.withNowSec now) = (body u).withNowSec now) (h : operate n body s = .next t) :
    operate n body (s.withNowSec now) = .next (t.withNowSec now) := by
  obtain ⟨hlen, ⟨hf, rfl⟩ | ⟨hok, rfl⟩⟩ := operate_cases h
  · rw [operate_faulted (s := s.withNowSec now) hlen hf]; rfl
  · rw [operate_runs (s := s.withNowSec now) hlen hok, ← hbody]; rfl

end

/-- Settles O48, by the command: none of the three bodies reads the time. -/
theorem onlyProcessReadsTheClock : Obligations.OnlyProcessReadsTheClock := by
  unfold Obligations.OnlyProcessReadsTheClock
  rintro i s t now (⟨acc, data, rfl⟩ | ⟨len, rfl⟩ | ⟨len, rfl⟩) h
  · rw [exec_crcUpdate] at h ⊢
    exact operate_withNowSec now (fun _ => rfl) h
  · rw [exec_crcDigest] at h ⊢
    exact operate_withNowSec now (digestBlock_withNowSec now len.toNat) h
  · rw [exec_unpack] at h ⊢
    exact operate_withNowSec now (unpackBlock_withNowSec now len.toNat) h

end Sys2Proof.Machine

/-! # Proofs of the family 70_reset_and_hazards.md

What reset leaves (R103), a reset asserted during a command (R104), and the first decision after a reset (R78, R103). -/

namespace Sys2Proof.Machine

/-! ## Reset (R103, R104) -/

/-- Settles O15: power-on by its definition, with no command to take, and an asserted reset by its step. -/
theorem resetSetsEveryStateElement : Obligations.ResetSetsEveryStateElement := by
  unfold Obligations.ResetSetsEveryStateElement
  exact ⟨⟨rfl, rfl, rfl, rfl, rfl⟩, step_idle rfl, fun _ _ hp => step_reset hp⟩

/-- Settles O44: power-on is a reset of itself, with nothing driven. -/
theorem invariantHoldsAtReset : Obligations.InvariantHoldsAtReset :=
  ⟨resetEngine_faultLatchLegal State.reset, resetEngine_gateLegal State.reset, idle_legal⟩

/-- Settles O16: the step completes, and it is the plain command after a reset or the plain command with a reset after it. -/
theorem resetDuringCommandIsBeforeOrAfter : Obligations.ResetDuringCommandIsBeforeOrAfter := by
  unfold Obligations.ResetDuringCommandIsBeforeOrAfter
  intro s tx rest hp hlen
  obtain ⟨t, ht⟩ := resetAround_completes (Config.resetFirst s.draws) (s := s.draw.accept tx rest) hlen
  have hstep : step s = .next t := (step_commandUnderReset hp).trans ht
  obtain hbefore | ⟨u, hu, rfl⟩ := resetAround_cases ht
  · exact ⟨t, t, hstep, .inl ⟨(step_command rfl).trans hbefore, rfl⟩⟩
  · exact ⟨u.resetEngine, u, hstep, .inr ⟨(step_command rfl).trans hu, rfl⟩⟩

/-! ## Runs without a decision -/

section
variable {s t : State} {k : Nat}

theorem run_succ_of_step (h : step s = .next t) : run (k + 1) s = run k t := by rw [run, h]

/-- A run that completes begins with a step that does. -/
theorem exists_step_of_run_succ (h : run (k + 1) s = .next t) : ∃ v, step s = .next v ∧ run k v = .next t := by
  rw [run] at h
  cases hs : step s with
  | next v => rw [hs] at h; exact ⟨v, rfl, h⟩
  | fault r => rw [hs] at h; cases h
  | refused r => rw [hs] at h; cases h

theorem emissionTimes_succ_eq_nil_iff (h : step s = .next t) :
    emissionTimes (k + 1) s = [] ↔ t.out.strobes = [] ∧ emissionTimes k t = [] := by
  simp [emissionTimes, h]

/-- A command that drives no strobe leaves the gate evaluated or not, as it was. -/
theorem step_command_gateValid_of_no_strobe {tx : Transaction} {rest : List HostAction}
    (hp : s.pending = .command tx :: rest) (h : step s = .next t) (hnone : t.out.strobes = []) :
    t.gateValid = s.gateValid := by
  obtain ⟨hkept, -, -⟩ | ⟨-, -, -, -, -, act, hact⟩ := gateIsWrittenOnlyByEmission s t tx rest hp h
  · exact hkept
  · rw [hnone] at hact; cases hact

end

/-- Commands that are all taken and decide nothing leave GATE_VALID as it was, and next what stands behind them. -/
theorem run_commands_of_no_decision {txs : List Transaction} {rest : List HostAction} {s u : State}
    (hp : s.pending = txs.map .command ++ rest) (hrun : run txs.length s = .next u)
    (hnone : emissionTimes txs.length s = []) : u.gateValid = s.gateValid ∧ u.pending = rest := by
  induction txs generalizing s with
  | nil => cases hrun; exact ⟨rfl, hp⟩
  | cons tx txs ih =>
    obtain ⟨v, hv, hrun⟩ := exists_step_of_run_succ hrun
    obtain ⟨hquiet, hnone⟩ := (emissionTimes_succ_eq_nil_iff hv).mp hnone
    obtain ⟨hgate, hrest⟩ := ih (step_pending hp hv) hrun hnone
    exact ⟨hgate.trans (step_command_gateValid_of_no_strobe hp hv hquiet), hrest⟩

/-! ## The first decision (R78, R103) -/

section
variable {s u : State} {between : List Transaction} {tx : Transaction} {rest : List HostAction}
  {len : BitVec 8} {c : BitVec 5} {thr : BitVec 11}

/-- The step of a PROCESS that passes validation, behind an open gate, with a legal CHAN_IDX is an emission (R81). -/
theorem step_process_decides (hp : s.pending = .command tx :: rest) (hdec : decode tx.cmd = .instr (.process len c thr))
    (hlen : tx.data.length = len.toNat) (hok : s.faulted = false) (hv : (s.accept tx rest).validFrame len.toNat)
    (hge : 26 ≤ len.toNat) (hopen : (s.accept tx rest).gateIsOpen) (hc : 1 ≤ c.toNat ∧ c.toNat ≤ 16) :
    ∃ v, step s = .next ((s.accept tx rest).quiet.emitDecision c thr v tx.now) := by
  have hchan : c.toNat - 1 < 16 := by omega
  refine ⟨(s.accept tx rest).frameChannels[c.toNat - 1], ?_⟩
  rw [step_command hp, runWord_instr hdec, exec_process_of_accepted (s := s.accept tx rest) hlen hok hv hge,
    decideFrame_of_channel (s := (s.accept tx rest).quiet) hopen hc (Vector.getElem?_eq_getElem hchan)]
  rfl

/-- From a gate never evaluated, a PROCESS that passes validation decides behind commands that neither decided nor faulted:
the gate is still never evaluated, so it is open whatever the time. -/
theorem run_decides_of_gate_never_evaluated (hdec : decode tx.cmd = .instr (.process len c thr))
    (hlen : tx.data.length = len.toNat) (hv : State.validFrame { s with block := tx.data } len.toNat)
    (hge : 26 ≤ len.toNat) (hc : 1 ≤ c.toNat ∧ c.toNat ≤ 16) (hgate : s.gateValid = false)
    (hp : s.pending = between.map .command ++ .command tx :: rest) (hrun : run between.length s = .next u)
    (hnone : emissionTimes between.length s = []) (hok : u.faulted = false) :
    ∃ t act, run (between.length + 1) s = .next t ∧ t.out.strobes = [act] ∧ t.gateValid = true ∧ t.gateLast = tx.now
      ∧ t.pending = rest := by
  obtain ⟨hkept, hnext⟩ := run_commands_of_no_decision hp hrun hnone
  obtain ⟨v, hstep⟩ := step_process_decides hnext hdec hlen hok hv hge (.inl (hkept.trans hgate)) hc
  exact ⟨_, _, by rw [run_add 1 hrun, run_succ_of_step hstep, run], rfl, rfl, rfl, rfl⟩

end

/-- Settles O41: an asserted reset drives nothing and leaves a gate never evaluated, from where the second clause goes on. -/
theorem firstDecisionAfterResetIsNotLimited : Obligations.FirstDecisionAfterResetIsNotLimited := by
  unfold Obligations.FirstDecisionAfterResetIsNotLimited
  intro s u between tx rest len c thr hdec hlen hv hge hlo hhi
  constructor
  · intro hp hrun hnone hok
    have hreset := step_reset hp
    rw [run_succ_of_step hreset] at hrun ⊢
    obtain ⟨-, hnone⟩ := (emissionTimes_succ_eq_nil_iff hreset).mp hnone
    exact run_decides_of_gate_never_evaluated hdec hlen hv hge ⟨hlo, hhi⟩ rfl rfl hrun hnone hok
  · intro hgate _ hp hrun hnone hok
    exact run_decides_of_gate_never_evaluated hdec hlen hv hge ⟨hlo, hhi⟩ hgate hp hrun hnone hok

end Sys2Proof.Machine

/-! # Proofs of the family other

The fault state over a run (R89, R92), the closed form and the wiring table of the unpacker (R66), and the round trip of
`unpack` and `pack` (R68). -/

namespace Sys2Proof.Machine

/-! ## Runs in the fault state (R89, R92) -/

/-- In the fault state a step that asserts no reset decides nothing and keeps the gate: only an emission writes it, and an
emission needs FAULTED = 0. -/
theorem step_keepsGate_of_faulted {s t : State} (hf : s.faulted = true) (hplain : s.noResetPending)
    (h : step s = .next t) : KeepsGate s t := by
  cases hp : s.pending with
  | nil =>
    rw [step_idle hp] at h; cases h
    exact ⟨rfl, rfl, rfl⟩
  | cons a rest =>
    obtain ⟨tx, rfl⟩ := exists_command_of_noResetPending hplain hp
    obtain hkept | ⟨-, -, -, hok, -⟩ := gateIsWrittenOnlyByEmission s t tx rest hp h
    · exact hkept
    · exact absurd (hok.symm.trans hf) Bool.false_ne_true

/-- Settles O13, by induction on the steps: each keeps the latch and the gate, and so the hypotheses. -/
theorem faultStateIsSticky : Obligations.FaultStateIsSticky := by
  unfold Obligations.FaultStateIsSticky
  intro k
  induction k with
  | zero =>
    intro s t hf _ hrun
    cases hrun
    exact ⟨hf, rfl, rfl, rfl, rfl⟩
  | succ k ih =>
    intro s t hf hplain hrun
    obtain ⟨v, hv, hrun⟩ := exists_step_of_run_succ hrun
    obtain ⟨hfaulted, hcause⟩ := step_keepsLatch_of_faulted hf (fun a _ hp => hplain a (hp ▸ List.mem_cons_self)) hv
    have hkept := step_keepsGate_of_faulted hf hplain hv
    obtain ⟨hend, hendCause, hendValid, hendLast, hnone⟩ :=
      ih v t (hfaulted.trans hf) (step_noResetPending hplain hv) hrun
    rw [emissionTimes_of_keepsGate k hkept hv]
    obtain ⟨hvalid, hlast, -⟩ := hkept
    exact ⟨hend, hendCause.trans hcause, hendValid.trans hvalid, hendLast.trans hlast, hnone⟩

/-! ## The closed form of `unpack` (R66) -/

theorem payloadValue_eq_sum (p : Nat → Byte) (n : Nat) :
    payloadValue p n = ∑ k ∈ Finset.range n, (p k).toNat <<< (8 * k) := by
  induction n with
  | zero => rfl
  | succ n ih => rw [payloadValue, Finset.sum_range_succ, ih]

/-- The lane is the 11 bits of the one integer from `11 * i` on: both take the same bits of the stream. -/
theorem unpack_toNat (p : Nat → Byte) {i : Nat} (hi : i < 16) :
    (unpack p)[i].toNat = (payloadValue p 22 >>> (11 * i)) &&& 0x7FF := by
  refine Nat.eq_of_testBit_eq fun j => ?_
  rw [show 0x7FF = 2 ^ 11 - 1 from rfl, Nat.testBit_and, Nat.testBit_shiftRight, Nat.testBit_two_pow_sub_one,
    payloadValue_bit, BitVec.testBit_toNat]
  by_cases hj : j < 11
  · have hin : 11 * i + j < 8 * 22 := by omega
    simp only [unpack_bit p hi hj, hin, hj, decide_true, Bool.true_and, Bool.and_true]
  · simp only [BitVec.getLsbD_of_ge _ j (Nat.le_of_not_lt hj), hj, decide_false, Bool.and_false]

/-! ## The wiring table (R66) -/

theorem streamBit_byte (p : Nat → Byte) (k : Nat) {l : Nat} (hl : l < 8) : streamBit p (8 * k + l) = (p k).getLsbD l := by
  rw [streamBit, show (8 * k + l) / 8 = k by omega, show (8 * k + l) % 8 = l by omega]

/-- The bundle stays within its byte and its channel, and its two ends are the same position of the bit stream (R30, R31). -/
def Wire.Aligned (x : Wire) : Prop :=
  x.channel - 1 < 16 ∧ x.lo + x.width ≤ 8 ∧ x.dest + x.width ≤ 11
    ∧ 11 * (x.channel - 1) + x.dest = 8 * x.byte + x.lo

theorem Wire.Aligned.holds_unpack {x : Wire} (hx : x.Aligned) (p : Nat → Byte) : x.holds p (unpack p) := by
  obtain ⟨hchan, hlo, hdest, hsame⟩ := hx
  intro v hv
  obtain rfl : (unpack p)[x.channel - 1] = v := by rwa [Vector.getElem?_eq_getElem hchan, Option.mem_some_iff] at hv
  refine BitVec.eq_of_getLsbD_eq fun j hj => ?_
  have hbit : (unpack p)[x.channel - 1].getLsbD (x.dest + j) = (p x.byte).getLsbD (x.lo + j) := by
    rw [unpack_bit p hchan (by omega), ← streamBit_byte p x.byte (by omega), ← Nat.add_assoc, hsame, Nat.add_assoc]
  rw [BitVec.getLsbD_extractLsb', BitVec.getLsbD_extractLsb', hbit]

theorem wiringTable_aligned : ∀ x ∈ wiringTable, x.Aligned := by
  unfold Wire.Aligned
  decide

/-- Settles O27: the lanes and the wire bundles take the bits of one stream. -/
theorem cursorUnpackIsTheClosedForm : Obligations.CursorUnpackIsTheClosedForm := by
  unfold Obligations.CursorUnpackIsTheClosedForm
  intro p
  constructor
  · intro i
    rw [← payloadValue_eq_sum]
    exact unpack_toNat p i.isLt
  · exact fun x hx => (wiringTable_aligned x hx).holds_unpack p

/-! ## `pack` and `unpack` (R68) -/

section
variable (ch : ChannelSet) (p : Nat → Byte)

/-- Channel `i + 1` stands in the packed integer from bit `11 * i` on. -/
theorem channelsValue_testBit_channel {i j : Nat} (hi : i < 16) (hj : j < 11) :
    (channelsValue ch 16).testBit (11 * i + j) = ch[i].getLsbD j := by
  have hin : 11 * i + j < 11 * 16 := by omega
  rw [channelsValue_bit, decide_eq_true hin, Bool.true_and, show (11 * i + j) / 11 = i by omega,
    show (11 * i + j) % 11 = j by omega, Vector.getElem?_eq_getElem hi, Option.getD_some]

/-- Byte `k` of the packed channels stands in the packed integer from bit `8 * k` on. -/
theorem packByte_getLsbD (k : Nat) {l : Nat} (hl : l < 8) :
    (packByte ch k).getLsbD l = (channelsValue ch 16).testBit (8 * k + l) := by
  rw [packByte, BitVec.getLsbD_ofNat, show 0xFF = 2 ^ 8 - 1 from rfl, Nat.testBit_and, Nat.testBit_shiftRight,
    Nat.testBit_two_pow_sub_one, decide_eq_true hl, Bool.true_and, Bool.and_true]

/-- The packed integer is the stream of the packed bytes. -/
theorem streamBit_packByte (j : Nat) : streamBit (packByte ch) j = (channelsValue ch 16).testBit j := by
  rw [streamBit, packByte_getLsbD ch _ (Nat.mod_lt j (by decide)), Nat.div_add_mod]

theorem unpack_packByte : unpack (packByte ch) = ch := by
  refine Vector.ext fun i hi => BitVec.eq_of_getLsbD_eq fun j hj => ?_
  rw [unpack_bit _ hi hj, streamBit_packByte, channelsValue_testBit_channel ch hi hj]

/-- The unpacked channels, packed into one integer, are the stream of the payload. -/
theorem channelsValue_unpack_testBit {j : Nat} (hj : j < 176) : (channelsValue (unpack p) 16).testBit j = streamBit p j := by
  have hchan : j / 11 < 16 := by omega
  have hbit : j % 11 < 11 := Nat.mod_lt j (by decide)
  calc (channelsValue (unpack p) 16).testBit j
    _ = (channelsValue (unpack p) 16).testBit (11 * (j / 11) + j % 11) := by rw [Nat.div_add_mod]
    _ = streamBit p (11 * (j / 11) + j % 11) := by
      rw [channelsValue_testBit_channel _ hchan hbit, unpack_bit p hchan hbit]
    _ = streamBit p j := by rw [Nat.div_add_mod]

theorem packByte_unpack {k : Nat} (hk : k < 22) : packByte (unpack p) k = p k := by
  refine BitVec.eq_of_getLsbD_eq fun l hl => ?_
  rw [packByte_getLsbD _ k hl, channelsValue_unpack_testBit p (by omega), streamBit_byte p k hl]

theorem getElem?_pack {k : Nat} (hk : k < 22) : (pack ch)[k]? = some (packByte ch k) := by
  rw [pack, List.getElem?_map, List.getElem?_range hk, Option.map_some]

end

/-- Settles O28, bit by bit of the stream: bits `11 * i` on are channel `i + 1`, and bits `8 * k` on are byte `k`. -/
theorem packAndUnpackAreInverse : Obligations.PackAndUnpackAreInverse := by
  unfold Obligations.PackAndUnpackAreInverse
  constructor
  · intro ch
    have hbytes : ∀ k < 22, ((pack ch)[k]?).getD 0#8 = packByte ch k := fun k hk => by
      rw [getElem?_pack ch hk, Option.getD_some]
    rw [unpack_congr hbytes, unpack_packByte]
  · exact fun p => List.map_congr_left fun k hk => packByte_unpack p (List.mem_range.mp hk)

end Sys2Proof.Machine
